-- ==== Sys2Proof/Word.lean ====
section
/-! DEFINITION. The word types of the machine (00_scope R4, R5): plain names for the widths the spec uses. -/

namespace Sys2Proof

/-- A register, a memory byte or a timer: 8 bits, unsigned (R4 XLEN, TIMER_W). -/
abbrev Byte := BitVec 8

/-- `pc`, `I`, a stack entry or an instruction word: 16 bits (R4 PC_W, IDX_W, STACK_W). -/
abbrev Word := BitVec 16

/-- The address field NNN: 12 bits (30_encoding R62). -/
abbrev Addr12 := BitVec 12

/-- The field N: 4 bits (30_encoding R62). -/
abbrev Nibble := BitVec 4

/-- A general register index, V0 to VF (10_state R10). -/
abbrev Reg := Fin 16

/-- VF, register 15, the flag register (10_state R11). -/
abbrev VF : Reg := 15

/-- The largest legal address (20_memory R40). -/
abbrev lastAddr : Nat := 0xFFF

/-- Where programs are loaded and where execution starts (00_scope R4 PROG_BASE). -/
abbrev progBase : Nat := 0x200

/-- The address of the font table (00_scope R4 FONT_BASE). -/
abbrev fontBase : Nat := 0x050

/-- The largest program image (00_scope R4 MAX_PROG). -/
abbrev maxProg : Nat := 3584

end Sys2Proof
end

