-- ==== Sys2Proof/Config.lean ====
section
/-! DEFINITION. What an implementation fixes (the four parameters of 00_scope R4) and the free values the
environment draws (00_scope R8). -/

namespace Sys2Proof

/-- RND_MODE (00_scope R4, 92 D14): whether family 0xC is the instruction RND or a family of unknown words. -/
inductive RndMode where
  | maskedDraw
  | unknown
deriving DecidableEq, Repr

/-- SHIFT_SOURCE (00_scope R4, 92 D12): the register 8XY6 and 8XYE shift. -/
inductive ShiftSource where
  | vx
  | vy
deriving DecidableEq, Repr

/-- KEY_CHOICE (00_scope R4, 92 D10): which of several held keys FX0A latches. -/
inductive KeyChoice where
  | any
  | lowest
  | highest
deriving DecidableEq, Repr

/-- The parameters of the hardware. No step changes them. -/
structure Config where
  rndMode     : RndMode
  shiftSource : ShiftSource
  keyChoice   : KeyChoice
  font        : Vector Byte 80
deriving DecidableEq, Repr

/-- The default of FONT, 16 glyphs of 5 bytes (10_state R24; PRESUMED by the spec itself, 93 G3, D19). -/
def Config.defaultFont : Vector Byte 80 :=
  #v[0xF0#8, 0x90#8, 0x90#8, 0x90#8, 0xF0#8,
     0x20#8, 0x60#8, 0x20#8, 0x20#8, 0x70#8,
     0xF0#8, 0x10#8, 0xF0#8, 0x80#8, 0xF0#8,
     0xF0#8, 0x10#8, 0xF0#8, 0x10#8, 0xF0#8] ++
  #v[0x90#8, 0x90#8, 0xF0#8, 0x10#8, 0x10#8,
     0xF0#8, 0x80#8, 0xF0#8, 0x10#8, 0xF0#8,
     0xF0#8, 0x80#8, 0xF0#8, 0x90#8, 0xF0#8,
     0xF0#8, 0x10#8, 0x20#8, 0x40#8, 0x40#8] ++
  #v[0xF0#8, 0x90#8, 0xF0#8, 0x90#8, 0xF0#8,
     0xF0#8, 0x90#8, 0xF0#8, 0x10#8, 0xF0#8,
     0xF0#8, 0x90#8, 0xF0#8, 0x90#8, 0x90#8,
     0xE0#8, 0x90#8, 0xE0#8, 0x90#8, 0xE0#8] ++
  #v[0xF0#8, 0x80#8, 0x80#8, 0x80#8, 0xF0#8,
     0xE0#8, 0x90#8, 0x90#8, 0x90#8, 0xE0#8,
     0xF0#8, 0x80#8, 0xF0#8, 0x80#8, 0xF0#8,
     0xF0#8, 0x80#8, 0xF0#8, 0x80#8, 0x80#8]

/-- The defaults of 00_scope R4. -/
def Config.standard : Config where
  rndMode     := .maskedDraw
  shiftSource := .vx
  keyChoice   := .any
  font        := Config.defaultFont

/-- FREE VALUE. The byte CXNN draws, `draw({0, ..., 255})`, at the n-th draw (41 R102): nothing constrains it
(log entry 3). -/
opaque Config.freeByte : Nat → Byte

/-- FREE VALUE. Picks the member of a set of held keys at the n-th draw, `draw(P)` of FX0A (45 R143): it is used
only modulo the number of held keys (log entry 3). -/
opaque Config.freeIndex : Nat → Nat

end Sys2Proof
end

