-- ==== Sys2Proof/Syntax.lean ====
section
/-! DEFINITION. The 34 instructions, one constructor per row of spec/opcode_table.json (30_encoding R65). -/

namespace Sys2Proof

/-- The instructions. `x`, `y` are register indices, `n`, `nn`, `nnn` the fields N, NN, NNN (30_encoding R62).
`seReg` and `sneReg` keep their trailing nibble although no meaning reads it (R69); `shr` and `shl` keep Y, which
counts only under SHIFT_SOURCE = vy (41 R99, R101). -/
inductive Instr where
  /-- 00E0 CLS -/
  | cls
  /-- 00EE RET -/
  | ret
  /-- 1NNN JP NNN -/
  | jp (nnn : Addr12)
  /-- 2NNN CALL NNN -/
  | call (nnn : Addr12)
  /-- 3XNN SE Vx, NN -/
  | seImm (x : Reg) (nn : Byte)
  /-- 4XNN SNE Vx, NN -/
  | sneImm (x : Reg) (nn : Byte)
  /-- 5XYn SE Vx, Vy -/
  | seReg (x y : Reg) (n : Nibble)
  /-- 6XNN LD Vx, NN -/
  | ldImm (x : Reg) (nn : Byte)
  /-- 7XNN ADD Vx, NN -/
  | addImm (x : Reg) (nn : Byte)
  /-- 8XY0 LD Vx, Vy -/
  | ldReg (x y : Reg)
  /-- 8XY1 OR Vx, Vy -/
  | orReg (x y : Reg)
  /-- 8XY2 AND Vx, Vy -/
  | andReg (x y : Reg)
  /-- 8XY3 XOR Vx, Vy -/
  | xorReg (x y : Reg)
  /-- 8XY4 ADD Vx, Vy -/
  | addReg (x y : Reg)
  /-- 8XY5 SUB Vx, Vy -/
  | subReg (x y : Reg)
  /-- 8XY6 SHR Vx -/
  | shr (x y : Reg)
  /-- 8XY7 SUBN Vx, Vy -/
  | subnReg (x y : Reg)
  /-- 8XYE SHL Vx -/
  | shl (x y : Reg)
  /-- 9XYn SNE Vx, Vy -/
  | sneReg (x y : Reg) (n : Nibble)
  /-- ANNN LD I, NNN -/
  | ldI (nnn : Addr12)
  /-- BNNN JP V0, NNN -/
  | jpV0 (nnn : Addr12)
  /-- CXNN RND Vx, NN -/
  | rnd (x : Reg) (nn : Byte)
  /-- DXYN DRW Vx, Vy, N -/
  | drw (x y : Reg) (n : Nibble)
  /-- EX9E SKP Vx -/
  | skp (x : Reg)
  /-- EXA1 SKNP Vx -/
  | sknp (x : Reg)
  /-- FX07 LD Vx, DT -/
  | ldVxDT (x : Reg)
  /-- FX0A LD Vx, K -/
  | ldVxK (x : Reg)
  /-- FX15 LD DT, Vx -/
  | ldDTVx (x : Reg)
  /-- FX18 LD ST, Vx -/
  | ldSTVx (x : Reg)
  /-- FX1E ADD I, Vx -/
  | addI (x : Reg)
  /-- FX29 LD F, Vx -/
  | ldF (x : Reg)
  /-- FX33 LD B, Vx -/
  | ldB (x : Reg)
  /-- FX55 LD [I], Vx -/
  | storeRegs (x : Reg)
  /-- FX65 LD Vx, [I] -/
  | loadRegs (x : Reg)
deriving DecidableEq, Repr

end Sys2Proof
end

