-- ==== Sys2Proof/WellFormed.lean ====
section
/-! DEFINITION. Which instructions exist in a machine of given parameters, and which are written canonically. The
operand ranges of 30_encoding R62 are in the types of Instr, so no check repeats them. -/

namespace Sys2Proof

/-- The instruction exists in a machine with these parameters: CXNN exists only under RND_MODE = masked_draw
(30_encoding R67(e), R70; opcode_table.json's note on CXNN). -/
def Instr.wellFormed (c : Config) : Instr → Bool
  | .rnd _ _ => c.rndMode == .maskedDraw
  | _ => true

/-- The canonical encodings, the ones an assembler emits: 5XY0 and 9XY0 have N = 0 (30_encoding R69). -/
def Instr.canonical : Instr → Bool
  | .seReg _ _ n => n == 0
  | .sneReg _ _ n => n == 0
  | _ => true

end Sys2Proof
end

