-- ==== Sys2Proof/Decode.lean ====
section
/-! DEFINITION. Decoding (30_encoding R60 to R70) and, after it, the encoder. Decoding is a pure function of the
word and the parameter RND_MODE; a word that selects no instruction is rejected by the name of its class (R67). -/

namespace Sys2Proof

/-- Why a word, or a run of bytes, is no instruction. The first five are the classes (a) to (e) of unknown words in
30_encoding R67; the last is a run of fewer than two bytes, which is no word at all (R60). -/
inductive NotAnInstr where
  | unknownFamily0
  | unknownFamily8
  | unknownFamilyE
  | unknownFamilyF
  | unknownFamilyC
  | truncated
deriving DecidableEq, Repr

/-! ### Fields (30_encoding R62) -/

/-- `OP = instr[15:12]`. -/
def opField (w : Word) : Nibble := w.extractLsb' 12 4

/-- `X = instr[11:8]`. -/
def xField (w : Word) : Reg := (w.extractLsb' 8 4).toFin

/-- `Y = instr[7:4]`. -/
def yField (w : Word) : Reg := (w.extractLsb' 4 4).toFin

/-- `N = instr[3:0]`. -/
def nField (w : Word) : Nibble := w.extractLsb' 0 4

/-- `NN = instr[7:0]`. -/
def nnField (w : Word) : Byte := w.extractLsb' 0 8

/-- `NNN = instr[11:0]`. -/
def nnnField (w : Word) : Addr12 := w.extractLsb' 0 12

/-! ### The decoder (30_encoding R65, R66) -/

/-- Family 0x0: the whole word is compared (R66, R68, D16). -/
def decodeFamily0 (w : Word) : Except NotAnInstr Instr :=
  match w with
  | 0x00E0#16 => .ok .cls
  | 0x00EE#16 => .ok .ret
  | _ => .error .unknownFamily0

/-- Family 0x8: the trailing nibble selects (R66). -/
def decodeFamily8 (w : Word) : Except NotAnInstr Instr :=
  match nField w with
  | 0x0#4 => .ok (.ldReg (xField w) (yField w))
  | 0x1#4 => .ok (.orReg (xField w) (yField w))
  | 0x2#4 => .ok (.andReg (xField w) (yField w))
  | 0x3#4 => .ok (.xorReg (xField w) (yField w))
  | 0x4#4 => .ok (.addReg (xField w) (yField w))
  | 0x5#4 => .ok (.subReg (xField w) (yField w))
  | 0x6#4 => .ok (.shr (xField w) (yField w))
  | 0x7#4 => .ok (.subnReg (xField w) (yField w))
  | 0xE#4 => .ok (.shl (xField w) (yField w))
  | _ => .error .unknownFamily8

/-- Family 0xE: the trailing byte selects (R66). -/
def decodeFamilyE (w : Word) : Except NotAnInstr Instr :=
  match nnField w with
  | 0x9E#8 => .ok (.skp (xField w))
  | 0xA1#8 => .ok (.sknp (xField w))
  | _ => .error .unknownFamilyE

/-- Family 0xF: the trailing byte selects (R66). -/
def decodeFamilyF (w : Word) : Except NotAnInstr Instr :=
  match nnField w with
  | 0x07#8 => .ok (.ldVxDT (xField w))
  | 0x0A#8 => .ok (.ldVxK (xField w))
  | 0x15#8 => .ok (.ldDTVx (xField w))
  | 0x18#8 => .ok (.ldSTVx (xField w))
  | 0x1E#8 => .ok (.addI (xField w))
  | 0x29#8 => .ok (.ldF (xField w))
  | 0x33#8 => .ok (.ldB (xField w))
  | 0x55#8 => .ok (.storeRegs (xField w))
  | 0x65#8 => .ok (.loadRegs (xField w))
  | _ => .error .unknownFamilyF

/-- Family 0xC: RND, or unknown words, by RND_MODE (R67(e), R70, D14). -/
def decodeFamilyC (c : Config) (w : Word) : Except NotAnInstr Instr :=
  match c.rndMode with
  | .maskedDraw => .ok (.rnd (xField w) (nnField w))
  | .unknown => .error .unknownFamilyC

/-- The decoder: the top nibble selects the family (R66). -/
def decode (c : Config) (w : Word) : Except NotAnInstr Instr :=
  match opField w with
  | 0x0#4 => decodeFamily0 w
  | 0x1#4 => .ok (.jp (nnnField w))
  | 0x2#4 => .ok (.call (nnnField w))
  | 0x3#4 => .ok (.seImm (xField w) (nnField w))
  | 0x4#4 => .ok (.sneImm (xField w) (nnField w))
  | 0x5#4 => .ok (.seReg (xField w) (yField w) (nField w))
  | 0x6#4 => .ok (.ldImm (xField w) (nnField w))
  | 0x7#4 => .ok (.addImm (xField w) (nnField w))
  | 0x8#4 => decodeFamily8 w
  | 0x9#4 => .ok (.sneReg (xField w) (yField w) (nField w))
  | 0xA#4 => .ok (.ldI (nnnField w))
  | 0xB#4 => .ok (.jpV0 (nnnField w))
  | 0xC#4 => decodeFamilyC c w
  | 0xD#4 => .ok (.drw (xField w) (yField w) (nField w))
  | 0xE#4 => decodeFamilyE w
  | _ => decodeFamilyF w

/-- The word of two bytes, the first the more significant (R60, 20_memory R44). -/
def wordOfBytes (hi lo : Byte) : Word := hi ++ lo

/-- Decoding a run of bytes: the first two make the word, the rest is returned (R60). -/
def decodeBytes (c : Config) : List Byte → Except NotAnInstr (Instr × List Byte)
  | hi :: lo :: rest =>
    match decode c (wordOfBytes hi lo) with
    | .ok i => .ok (i, rest)
    | .error e => .error e
  | _ => .error .truncated

/-! ### The encoder (30_encoding R61, R65) -/

/-- The 4 bits of a register index. -/
def regBits (r : Reg) : Nibble := BitVec.ofFin r

/-- Format A: OP, NNN. -/
def wordA (op : Nibble) (nnn : Addr12) : Word := op ++ nnn

/-- Formats XI and XS: OP, X, NN (or the sub-opcode byte). -/
def wordXI (op : Nibble) (x : Reg) (nn : Byte) : Word := op ++ regBits x ++ nn

/-- Formats XY and XYN: OP, X, Y, N (or the sub-opcode nibble). -/
def wordXYN (op : Nibble) (x y : Reg) (n : Nibble) : Word := op ++ regBits x ++ regBits y ++ n

/-- The word of an instruction (R65). -/
def encode : Instr → Word
  | .cls => 0x00E0#16
  | .ret => 0x00EE#16
  | .jp nnn => wordA 0x1 nnn
  | .call nnn => wordA 0x2 nnn
  | .seImm x nn => wordXI 0x3 x nn
  | .sneImm x nn => wordXI 0x4 x nn
  | .seReg x y n => wordXYN 0x5 x y n
  | .ldImm x nn => wordXI 0x6 x nn
  | .addImm x nn => wordXI 0x7 x nn
  | .ldReg x y => wordXYN 0x8 x y 0x0
  | .orReg x y => wordXYN 0x8 x y 0x1
  | .andReg x y => wordXYN 0x8 x y 0x2
  | .xorReg x y => wordXYN 0x8 x y 0x3
  | .addReg x y => wordXYN 0x8 x y 0x4
  | .subReg x y => wordXYN 0x8 x y 0x5
  | .shr x y => wordXYN 0x8 x y 0x6
  | .subnReg x y => wordXYN 0x8 x y 0x7
  | .shl x y => wordXYN 0x8 x y 0xE
  | .sneReg x y n => wordXYN 0x9 x y n
  | .ldI nnn => wordA 0xA nnn
  | .jpV0 nnn => wordA 0xB nnn
  | .rnd x nn => wordXI 0xC x nn
  | .drw x y n => wordXYN 0xD x y n
  | .skp x => wordXI 0xE x 0x9E
  | .sknp x => wordXI 0xE x 0xA1
  | .ldVxDT x => wordXI 0xF x 0x07
  | .ldVxK x => wordXI 0xF x 0x0A
  | .ldDTVx x => wordXI 0xF x 0x15
  | .ldSTVx x => wordXI 0xF x 0x18
  | .addI x => wordXI 0xF x 0x1E
  | .ldF x => wordXI 0xF x 0x29
  | .ldB x => wordXI 0xF x 0x33
  | .storeRegs x => wordXI 0xF x 0x55
  | .loadRegs x => wordXI 0xF x 0x65

/-- The bytes of an instruction as memory holds them, most significant first (R60). -/
def encodeBytes (i : Instr) : List Byte :=
  [(encode i).extractLsb' 8 8, (encode i).extractLsb' 0 8]

/-! ### The opcode map's match and mask columns (30_encoding R65) -/

/-- Column `mask` of R65. -/
def opMask : Instr → Word
  | .cls | .ret => 0xFFFF#16
  | .jp _ | .call _ | .seImm _ _ | .sneImm _ _ | .seReg _ _ _ | .ldImm _ _ | .addImm _ _ => 0xF000#16
  | .ldReg _ _ | .orReg _ _ | .andReg _ _ | .xorReg _ _ | .addReg _ _ | .subReg _ _ => 0xF00F#16
  | .shr _ _ | .subnReg _ _ | .shl _ _ => 0xF00F#16
  | .sneReg _ _ _ | .ldI _ | .jpV0 _ | .rnd _ _ | .drw _ _ _ => 0xF000#16
  | .skp _ | .sknp _ | .ldVxDT _ | .ldVxK _ | .ldDTVx _ | .ldSTVx _ => 0xF0FF#16
  | .addI _ | .ldF _ | .ldB _ | .storeRegs _ | .loadRegs _ => 0xF0FF#16

/-- Column `match` of R65. -/
def opMatch : Instr → Word
  | .cls => 0x00E0#16
  | .ret => 0x00EE#16
  | .jp _ => 0x1000#16
  | .call _ => 0x2000#16
  | .seImm _ _ => 0x3000#16
  | .sneImm _ _ => 0x4000#16
  | .seReg _ _ _ => 0x5000#16
  | .ldImm _ _ => 0x6000#16
  | .addImm _ _ => 0x7000#16
  | .ldReg _ _ => 0x8000#16
  | .orReg _ _ => 0x8001#16
  | .andReg _ _ => 0x8002#16
  | .xorReg _ _ => 0x8003#16
  | .addReg _ _ => 0x8004#16
  | .subReg _ _ => 0x8005#16
  | .shr _ _ => 0x8006#16
  | .subnReg _ _ => 0x8007#16
  | .shl _ _ => 0x800E#16
  | .sneReg _ _ _ => 0x9000#16
  | .ldI _ => 0xA000#16
  | .jpV0 _ => 0xB000#16
  | .rnd _ _ => 0xC000#16
  | .drw _ _ _ => 0xD000#16
  | .skp _ => 0xE09E#16
  | .sknp _ => 0xE0A1#16
  | .ldVxDT _ => 0xF007#16
  | .ldVxK _ => 0xF00A#16
  | .ldDTVx _ => 0xF015#16
  | .ldSTVx _ => 0xF018#16
  | .addI _ => 0xF01E#16
  | .ldF _ => 0xF029#16
  | .ldB _ => 0xF033#16
  | .storeRegs _ => 0xF055#16
  | .loadRegs _ => 0xF065#16

/-! ### The host's entry -/

/-- The two bytes, in memory order, of a word numbered as spec/opcode_table.json numbers it, of which the table
gives `nbits` bits and the bits above are 0. -/
def tableBytes (nbits w : Nat) : List Byte :=
  [BitVec.ofNat 8 (w % 2 ^ nbits / 256), BitVec.ofNat 8 (w % 2 ^ nbits)]

/-- The instruction this decoder reads from a table word, under the default parameters. -/
def decodeTableWord (nbits w : Nat) : Option Instr :=
  match decodeBytes Config.standard (tableBytes nbits w) with
  | .ok (i, _) => some i
  | .error _ => none

end Sys2Proof
end

