-- ==== Sys2Proof/Machine/State.lean ====
section
/-! DEFINITION. The state of the machine as plain data (10_state), why a step can stop, and the state after reset. -/

namespace Sys2Proof.Machine

/-- The 4096 bytes of `mem` (10_state R22): the bytes that differ from the reset contents, addresses rising. The
operations and the canonical form are in Machine/Ops.lean (log entry 10). -/
abbrev Memory := List Host.Cell

/-- The framebuffer, row y first, column x second (10_state R25). -/
abbrev Display := Vector (Vector Bool 64) 32

/-- The conditions that latch a fault (60_exceptions R151). They are entered as next states, see `raise`. -/
inductive RunFault where
  | fetchOutOfRange
  | memoryOutOfRange
  | stackOverflow
  | stackUnderflow
  | keyIndexOutOfRange
deriving DecidableEq, Repr

structure State where
  /-- x[0..15] (R10, R11). -/
  regs      : Vector Byte 16
  /-- The program counter (R13, R14). -/
  pc        : Word
  /-- The index register (R16). -/
  I         : Word
  /-- How many return addresses the call stack holds, 0 to 16 (R17). -/
  sp        : Fin 17
  /-- The call stack (R18). -/
  stack     : Vector Word 16
  /-- The delay timer (R19). -/
  DT        : Byte
  /-- The sound timer (R20). -/
  ST        : Byte
  /-- The fault latch: halted for good (R21). -/
  fault     : Bool
  /-- `fault_code` (R21, 60 R151). -/
  faultCode : BitVec 3
  /-- `fault_info` (R21, 60 R151). -/
  faultInfo : Word
  /-- The memory (R22, R23). -/
  mem       : Memory
  /-- The display framebuffer (R25). -/
  disp      : Display
  /-- The keypad as sampled for the latest cycle, bit k for key k (R26). -/
  key       : BitVec 16
  /-- The instruction word of the latest cycle, transient (R27). -/
  instr     : Word
  /-- The tone output of the latest cycle (R28). -/
  tone      : Bool
  /-- The outputs `unknown_op` and `unknown_word` of the latest cycle: `some w` is `unknown_op = 1` with the word w,
  `none` is `unknown_op = 0` (R29; log entry 5). -/
  unknown   : Option Word
  /-- The output `load_error` (R30, 20_memory R56). -/
  loadError : Bool
  /-- MODEL'S OWN: the levels the host will present on `keys` in the coming cycles, the next one first (R26, R30;
  log entry 1). -/
  keysIn    : List (BitVec 16)
  /-- MODEL'S OWN: a cycle has run since reset (20_memory R57; log entry 7). -/
  started   : Bool
  /-- MODEL'S OWN: how many free values have been drawn (00_scope R8; log entry 3). -/
  draws     : Nat
  /-- MODEL'S OWN: the parameters this machine has (00_scope R4; log entry 2). -/
  cfg       : Config
deriving DecidableEq, Repr

/-- The step stops with a fault. Only this one: the run-time faults of 60_exceptions are latched in State. -/
inductive Fault where
  /-- Raised by `step` while `load_error` is 1: "fatal, rejected before any execution begins" (20_memory R56: the
  core must not be stepped). Safe: the model stops where the spec gives no cycle. -/
  | loadError
deriving DecidableEq, Repr

/-- No meaning is given. -/
inductive Refusal where
  /-- An arm of `exec` without a meaning yet, by the table's mnemonic. No arm raises it now. Safe. -/
  | notModelled (mnemonic : String)
  /-- Raised by the host action `load` after the first cycle: "a model gives it no meaning" (20_memory R57, 93 U17).
  Safe. No step raises it. -/
  | loadAfterFirstCycle
deriving DecidableEq, Repr

/-- The state after reset of a machine with parameters `c` (10_state R32, 70 R180); the model's own fields are
empty, false and 0 (log entries 1, 3, 7). -/
def State.resetWith (c : Config) : State where
  regs      := Vector.replicate 16 0
  pc        := 0x0200
  I         := 0
  sp        := 0
  stack     := Vector.replicate 16 0
  DT        := 0
  ST        := 0
  fault     := false
  faultCode := 0
  faultInfo := 0
  mem       := []
  disp      := Vector.replicate 32 (Vector.replicate 64 false)
  key       := 0
  instr     := 0
  tone      := false
  unknown   := none
  loadError := false
  keysIn    := []
  started   := false
  draws     := 0
  cfg       := c

/-- The machine right after reset, with the default parameters of 00_scope R4. -/
def State.reset : State := State.resetWith Config.standard

end Sys2Proof.Machine
end

