-- ==== Sys2Proof/Machine/Ops.lean ====
section
/-! DEFINITION. The named operations over memory, registers, the call stack, the fault latch and the stages of a
cycle. Every meaning is written over these. -/

namespace Sys2Proof.Machine

/-! ### Memory (20_memory R40 to R47) -/

/-- What an address reads as after reset: FONT at 0x050..0x09F, else 0x00 (10_state R22, R23). This is what an
address that memory does not list reads as. -/
def resetByte (c : Config) (a : Nat) : Byte :=
  if h : 0x050 ≤ a ∧ a < 0x0A0 then c.font[a - 0x050] else 0

/-- The canonical form: addresses strictly rising and inside memory, no entry equal to the reset contents
(log entry 10). -/
abbrev Memory.wf (c : Config) (m : Memory) : Prop :=
  m.Pairwise (fun p q => p.1 < q.1) ∧ ∀ p ∈ m, p.1 ≤ lastAddr ∧ p.2 ≠ resetByte c p.1

/-- The listed byte at an address, if there is one. -/
def Memory.lookup : Memory → Nat → Option Byte
  | [], _ => none
  | (b, v) :: m, a => if a = b then some v else Memory.lookup m a

/-- The listing with `v` at `a`, in its place. -/
def Memory.insert : Memory → Nat → Byte → Memory
  | [], a, v => [(a, v)]
  | (b, w) :: m, a, v =>
    if a < b then (a, v) :: (b, w) :: m
    else if a = b then (a, v) :: m
    else (b, w) :: Memory.insert m a v

/-- The listing without the address `a`. -/
def Memory.erase (m : Memory) (a : Nat) : Memory := m.filter (fun p => p.1 ≠ a)

/-- `MemRead(a, 1)` (00_scope R7) at a legal address: the last byte written there, or the reset contents (R47). The
range check of R42 is `State.guardAccess`, and it stands before every use. -/
def Memory.read (c : Config) (m : Memory) (a : Nat) : Byte :=
  (m.lookup a).getD (resetByte c a)

/-- `MemWrite(a, 1, v)` (00_scope R7) at a legal address, keeping the canonical form. -/
def Memory.write (c : Config) (m : Memory) (a : Nat) (v : Byte) : Memory :=
  if v = resetByte c a then m.erase a else m.insert a v

/-- The byte at address `a`. -/
def State.readByte (s : State) (a : Nat) : Byte := Memory.read s.cfg s.mem a

/-- The state with `v` stored at address `a`. -/
def State.writeByte (s : State) (a : Nat) (v : Byte) : State :=
  { s with mem := Memory.write s.cfg s.mem a v }

/-- The `n` bytes from address `a` up, in increasing order (R46). -/
def State.readBytes (s : State) (a n : Nat) : List Byte :=
  (List.range n).map (fun k => s.readByte (a + k))

/-- The bytes stored from address `a` up, in increasing order (R46). -/
def State.storeBytes (s : State) (a : Nat) : List Byte → State
  | [] => s
  | v :: vs => State.storeBytes (s.writeByte a v) (a + 1) vs

/-! ### Registers -/

/-- `x[r]` (10_state R10). -/
def State.reg (s : State) (r : Reg) : Byte := s.regs[r]

/-- `x[r] <- v`. -/
def State.setReg (s : State) (r : Reg) (v : Byte) : State := { s with regs := s.regs.set r v }

/-- All sixteen registers written at once. -/
def State.setRegs (s : State) (v : Vector Byte 16) : State := { s with regs := v }

/-- `pc <- w`. -/
def State.setPc (s : State) (w : Word) : State := { s with pc := w }

/-- `I <- w`. -/
def State.setI (s : State) (w : Word) : State := { s with I := w }

/-- `DT <- v`. -/
def State.setDT (s : State) (v : Byte) : State := { s with DT := v }

/-- `ST <- v`. -/
def State.setST (s : State) (v : Byte) : State := { s with ST := v }

/-- `disp <- d`. -/
def State.setDisp (s : State) (d : Display) : State := { s with disp := d }

/-- One more free value has been drawn (log entry 3). -/
def State.countDraw (s : State) : State := { s with draws := s.draws + 1 }

/-! ### The call stack (10_state R17, R18) -/

/-- Push the program counter, write then increment; `none` when the stack is full (42 R112). -/
def State.pushPc (s : State) : Option State :=
  if h : s.sp.val < 16 then
    some { s with stack := s.stack.set s.sp.val s.pc, sp := ⟨s.sp.val + 1, by omega⟩ }
  else none

/-- Pop into the program counter, decrement then read, the entry keeping its value; `none` when the stack is empty
(42 R113). -/
def State.popPc (s : State) : Option State :=
  if h : 0 < s.sp.val then
    some { s with pc := s.stack[s.sp.val - 1], sp := ⟨s.sp.val - 1, by omega⟩ }
  else none

/-! ### Taking a fault (60_exceptions R151, R159; 00_scope R8) -/

/-- `fault_code` (60 R151). -/
def RunFault.code : RunFault → BitVec 3
  | .fetchOutOfRange => 1
  | .memoryOutOfRange => 2
  | .stackOverflow => 3
  | .stackUnderflow => 4
  | .keyIndexOutOfRange => 5

/-- The latch written, nothing else of the machine, and the outputs of a faulting cycle (40 R86: `tone` and
`unknown_op` are 0). There is no return from a fault (60 R161). -/
def State.latchFault (s : State) (code : BitVec 3) (info : Word) : State :=
  { s with fault := true, faultCode := code, faultInfo := info, tone := false, unknown := none }

/-- `raise f(info)`: the one way into a fault. A meaning raises on its own stage-3 state before it has written
anything; `State.commit` then discards the rest of the cycle (60 R159). -/
def State.raise (s : State) (f : RunFault) (info : Word) : State := s.latchFault f.code info

/-- The range check of a data access of `n` bytes from `I` up, before any access is made (20_memory R42): the
lowest offending address is `max(I, 0x1000)` (60 R151). With no byte to access there is nothing to check. -/
def State.guardAccess (s : State) (n : Nat) (t : State) : State :=
  if 0 < n ∧ s.I.toNat + n - 1 > lastAddr then
    s.raise .memoryOutOfRange (BitVec.ofNat 16 (max s.I.toNat 0x1000))
  else t

/-! ### The stages of a cycle (40_cycle R80 to R86) -/

/-- Sample the keypad: the host's next levels if it presents any, else the levels it holds (10_state R26;
log entry 1). -/
def State.sampleKeys (s : State) : State :=
  match s.keysIn with
  | [] => s
  | k :: ks => { s with key := k, keysIn := ks }

/-- Stage 1, FETCH: the big-endian word at `pc`, or `none` for FetchOutOfRange (R81). -/
def State.fetchWord (s : State) : Option Word :=
  if s.pc.toNat > 0xFFE then none
  else some (wordOfBytes (s.readByte s.pc.toNat) (s.readByte (s.pc.toNat + 1)))

/-- Stage 2, ADVANCE: `pc <- (pc + 2) mod 2^16` (R82). -/
def State.advance (s : State) : State := { s with pc := s.pc + 2 }

/-- The state stage 3 starts from: keys sampled, the fetched word in `instr`, the outputs of the last cycle over,
`pc` advanced (R80 to R82). -/
def State.beginExecute (s : State) (w : Word) : State :=
  { s.sampleKeys.advance with instr := w, tone := false, unknown := none, started := true }

/-- `diag(w)`: the unknown word is reported for this cycle, nothing else happens in stage 3 (R84). -/
def State.reportUnknown (s : State) (w : Word) : State := { s with unknown := some w }

/-- A timer's decrement, with its floor of zero (60 R164). -/
def decTimer (t : Byte) : Byte := if 0 < t.toNat then t - 1 else t

/-- Stage 4, TIMERS: `tone` from the sound timer before its decrement, then both decrements (60 R164, R165). -/
def State.timerStage (s : State) : State :=
  { s with tone := s.ST == 1, DT := decTimer s.DT, ST := decTimer s.ST }

/-- The end of a cycle that began in `start` and left stage 3 in `t`: the timer stage, or, if stage 3 raised a
fault, the state as at the start of the cycle with the latch written (60 R159, 40 R86). -/
def State.commit (start t : State) : State :=
  if t.fault then start.latchFault t.faultCode t.faultInfo else t.timerStage

/-- The end of a cycle on the outcome of stage 3. -/
def finishCycle (start : State) (o : Host.Outcome State Fault Refusal) : Host.Outcome State Fault Refusal :=
  match o with
  | .next t => .next (start.commit t)
  | .fault r => .fault r
  | .refused r => .refused r

end Sys2Proof.Machine
end

