-- ==== Sys2Proof/Machine/Operands.lean ====
section
/-! DEFINITION. The operand forms of the instructions (30_encoding R64, 44 R130, 45 R140). -/

namespace Sys2Proof.Machine

/-- `zext_16` of an address field (30 R64). -/
def zextAddr (nnn : Addr12) : Word := nnn.setWidth 16

/-- `zext_16` of a register value (30 R64). -/
def zextByte (v : Byte) : Word := v.setWidth 16

/-- The operand of 8XY6 and 8XYE: `x[X]` or `x[Y]` by SHIFT_SOURCE (41 R99, R101). -/
def State.shiftOperand (s : State) (x y : Reg) : Byte :=
  match s.cfg.shiftSource with
  | .vx => s.reg x
  | .vy => s.reg y

/-- The key named by a register: its full 8-bit value, `none` above 15 (45 R141). -/
def State.keyPressed? (s : State) (x : Reg) : Option Bool :=
  if (s.reg x).toNat > 15 then none else some (s.key.getLsbD (s.reg x).toNat)

/-- `P`, the keys held in this cycle's sample, lowest first (45 R143). -/
def State.heldKeys (s : State) : List Reg :=
  (List.finRange 16).filter (fun k => s.key.getLsbD k.val)

/-- `draw(P)` for the nonempty set `k :: ks`, by KEY_CHOICE: under `any` a free member of it, the one member when
there is only one (45 R143, D10). -/
def State.chooseKey (s : State) (k : Reg) (ks : List Reg) : Reg :=
  match s.cfg.keyChoice with
  | .lowest => k
  | .highest => ks.getLastD k
  | .any => if ks.isEmpty then k else (k :: ks).getD (Config.freeIndex s.draws % (ks.length + 1)) k

/-- The address of the glyph of a register's low nibble (44 R133). -/
def glyphAddr (v : Byte) : Word := BitVec.ofNat 16 (fontBase + 5 * (v.toNat % 16))

/-- The decimal digits of a byte: hundreds, tens, ones (44 R134). -/
def bcdDigits (v : Byte) : List Byte :=
  [BitVec.ofNat 8 (v.toNat / 100), BitVec.ofNat 8 (v.toNat / 10 % 10), BitVec.ofNat 8 (v.toNat % 10)]

/-- The registers x[0] to x[X] in order (44 R135). -/
def State.regsUpTo (s : State) (x : Reg) : List Byte := s.regs.toList.take (x.val + 1)

/-- `x[i] <- MemRead(I + i, 1)` for i in 0 .. X (44 R136). -/
def State.loadRegsUpTo (s : State) (x : Reg) : State :=
  s.setRegs (Vector.ofFn fun i : Reg => if i ≤ x then s.readByte (s.I.toNat + i.val) else s.reg i)

/-- The skip: a further 2 on the advanced `pc` when the condition holds (42 R110). -/
def State.skipIf (s : State) (cond : Bool) : State := if cond then s.setPc (s.pc + 2) else s

end Sys2Proof.Machine
end

