-- ==== Sys2Proof/Machine/Flags.lean ====
section
/-! DEFINITION. The flag computations (10_state R15, 41_arith_logic R90, R103): VF is the one flag. -/

namespace Sys2Proof.Machine

/-- A flag value, exactly 1 or 0 (10_state R11). -/
def flagByte (b : Bool) : Byte := if b then 1 else 0

/-- Carry of `a + b` (41 R90, R97). -/
def carryFlag (a b : Byte) : Byte := flagByte (decide (a.toNat + b.toNat > 255))

/-- Not borrow of `a - b`: equality gives 1 (41 R90, R98, R100; D11). -/
def notBorrowFlag (a b : Byte) : Byte := flagByte (decide (a.toNat ≥ b.toNat))

/-- The bit a right shift moves out (41 R99). -/
def shiftRightOut (v : Byte) : Byte := BitVec.ofNat 8 (v.toNat % 2)

/-- The bit a left shift moves out (41 R101). -/
def shiftLeftOut (v : Byte) : Byte := BitVec.ofNat 8 (v.toNat / 128)

/-- The result to `x[X]`, then the flag to VF as the last step (41 R103). -/
def State.setResultFlag (s : State) (x : Reg) (result flag : Byte) : State :=
  (s.setReg x result).setReg VF flag

end Sys2Proof.Machine
end

