-- ==== Sys2Proof/Machine/ArithLogic.lean ====
section
/-! DEFINITION. Register load, arithmetic, logic, shift and random (41_arith_logic). Arithmetic is exact on Nat or
Int and narrowed to 8 bits at the end (R90). -/

namespace Sys2Proof.Machine

/-- 6XNN `LD Vx, NN` (R91). -/
def execLdImm (x : Reg) (nn : Byte) (s : State) : Host.Outcome State Fault Refusal :=
  .next (s.setReg x nn)

/-- 7XNN `ADD Vx, NN`: no flag (R92). -/
def execAddImm (x : Reg) (nn : Byte) (s : State) : Host.Outcome State Fault Refusal :=
  .next (s.setReg x (BitVec.ofNat 8 ((s.reg x).toNat + nn.toNat)))

/-- 8XY0 `LD Vx, Vy` (R93). -/
def execLdReg (x y : Reg) (s : State) : Host.Outcome State Fault Refusal :=
  .next (s.setReg x (s.reg y))

/-- 8XY1 `OR Vx, Vy` (R94). -/
def execOrReg (x y : Reg) (s : State) : Host.Outcome State Fault Refusal :=
  .next (s.setReg x (s.reg x ||| s.reg y))

/-- 8XY2 `AND Vx, Vy` (R95). -/
def execAndReg (x y : Reg) (s : State) : Host.Outcome State Fault Refusal :=
  .next (s.setReg x (s.reg x &&& s.reg y))

/-- 8XY3 `XOR Vx, Vy` (R96). -/
def execXorReg (x y : Reg) (s : State) : Host.Outcome State Fault Refusal :=
  .next (s.setReg x (s.reg x ^^^ s.reg y))

/-- 8XY4 `ADD Vx, Vy`: VF = carry (R97). -/
def execAddReg (x y : Reg) (s : State) : Host.Outcome State Fault Refusal :=
  .next (s.setResultFlag x (BitVec.ofNat 8 ((s.reg x).toNat + (s.reg y).toNat)) (carryFlag (s.reg x) (s.reg y)))

/-- 8XY5 `SUB Vx, Vy`: VF = not borrow (R98). -/
def execSubReg (x y : Reg) (s : State) : Host.Outcome State Fault Refusal :=
  .next (s.setResultFlag x (BitVec.ofInt 8 ((s.reg x).toNat - (s.reg y).toNat : Int)) (notBorrowFlag (s.reg x) (s.reg y)))

/-- 8XY6 `SHR Vx`: VF = bit 0 of the operand (R99). -/
def execShr (x y : Reg) (s : State) : Host.Outcome State Fault Refusal :=
  .next (s.setResultFlag x (BitVec.ofNat 8 ((s.shiftOperand x y).toNat / 2)) (shiftRightOut (s.shiftOperand x y)))

/-- 8XY7 `SUBN Vx, Vy`: VF = not borrow (R100). -/
def execSubnReg (x y : Reg) (s : State) : Host.Outcome State Fault Refusal :=
  .next (s.setResultFlag x (BitVec.ofInt 8 ((s.reg y).toNat - (s.reg x).toNat : Int)) (notBorrowFlag (s.reg y) (s.reg x)))

/-- 8XYE `SHL Vx`: VF = bit 7 of the operand (R101). -/
def execShl (x y : Reg) (s : State) : Host.Outcome State Fault Refusal :=
  .next (s.setResultFlag x (BitVec.ofNat 8 ((s.shiftOperand x y).toNat * 2)) (shiftLeftOut (s.shiftOperand x y)))

/-- The effect of CXNN for the drawn byte `r` (R102). -/
def State.maskedDraw (s : State) (x : Reg) (nn r : Byte) : State := (s.setReg x (r &&& nn)).countDraw

/-- CXNN `RND Vx, NN`: a free byte, masked. Under RND_MODE = unknown the word is an unknown word (R102), which the
decoder rejects first; the meaning then reports it too (log entry 20). -/
def execRnd (x : Reg) (nn : Byte) (s : State) : Host.Outcome State Fault Refusal :=
  match s.cfg.rndMode with
  | .maskedDraw => .next (s.maskedDraw x nn (Config.freeByte s.draws))
  | .unknown => .next (s.reportUnknown (encode (.rnd x nn)))

end Sys2Proof.Machine
end

