-- ==== Sys2Proof/Machine/ControlFlow.lean ====
section
/-! DEFINITION. Jumps, call, return and skips (42_control_flow). The `pc` these read is the advanced one. -/

namespace Sys2Proof.Machine

/-- 1NNN `JP NNN` (R111). -/
def execJp (nnn : Addr12) (s : State) : Host.Outcome State Fault Refusal :=
  .next (s.setPc (zextAddr nnn))

/-- 2NNN `CALL NNN` (R112). -/
def execCall (nnn : Addr12) (s : State) : Host.Outcome State Fault Refusal :=
  match s.pushPc with
  | some t => .next (t.setPc (zextAddr nnn))
  | none => .next (s.raise .stackOverflow (BitVec.ofNat 16 s.sp.val))

/-- 00EE `RET` (R113). -/
def execRet (s : State) : Host.Outcome State Fault Refusal :=
  match s.popPc with
  | some t => .next t
  | none => .next (s.raise .stackUnderflow (BitVec.ofNat 16 s.sp.val))

/-- BNNN `JP V0, NNN` (R114). -/
def execJpV0 (nnn : Addr12) (s : State) : Host.Outcome State Fault Refusal :=
  .next (s.setPc (zextAddr nnn + zextByte (s.reg 0)))

/-- 3XNN `SE Vx, NN` (R115). -/
def execSeImm (x : Reg) (nn : Byte) (s : State) : Host.Outcome State Fault Refusal :=
  .next (s.skipIf (s.reg x == nn))

/-- 4XNN `SNE Vx, NN` (R116). -/
def execSneImm (x : Reg) (nn : Byte) (s : State) : Host.Outcome State Fault Refusal :=
  .next (s.skipIf (s.reg x != nn))

/-- 5XYn `SE Vx, Vy`: the trailing nibble is not examined (R117, 30 R69). -/
def execSeReg (x y : Reg) (s : State) : Host.Outcome State Fault Refusal :=
  .next (s.skipIf (s.reg x == s.reg y))

/-- 9XYn `SNE Vx, Vy`: the trailing nibble is not examined (R118, 30 R69). -/
def execSneReg (x y : Reg) (s : State) : Host.Outcome State Fault Refusal :=
  .next (s.skipIf (s.reg x != s.reg y))

end Sys2Proof.Machine
end

