-- ==== Sys2Proof/Machine/Display.lean ====
section
/-! DEFINITION. Clear and sprite draw (43_display). -/

namespace Sys2Proof.Machine

/-- The display with every cell off (R121). -/
def clearDisplay : Display := Vector.replicate 32 (Vector.replicate 64 false)

/-- The cell at row y, column x; off outside the 64 × 32 cells (10_state R25). -/
def Display.cell (d : Display) (y x : Nat) : Bool :=
  if h : y < 32 ∧ x < 64 then d[y][x] else false

/-- XOR a sprite bit that is 1 into the cell at row y, column x: clipped outside the display, and the collision
flag is set if the cell was on (R120, R122). -/
def toggleCell (acc : Display × Bool) (y x : Nat) : Display × Bool :=
  if h : y < 32 ∧ x < 64 then
    (acc.1.set y (acc.1[y].set x (!acc.1[y][x])), acc.2 || acc.1[y][x])
  else acc

/-- One sprite row: bit 7 - c of the byte lands on column x0 + c, c = 0 .. 7 (R120, R122). -/
def drawRow (acc : Display × Bool) (b : Byte) (y x0 : Nat) : Display × Bool :=
  (List.range 8).foldl (fun acc c => if b.getLsbD (7 - c) then toggleCell acc y (x0 + c) else acc) acc

/-- The sprite rows from row y down (R122). -/
def drawSprite (acc : Display × Bool) : List Byte → Nat → Nat → Display × Bool
  | [], _, _ => acc
  | b :: bs, y, x0 => drawSprite (drawRow acc b y x0) bs (y + 1) x0

/-- The display and VF after a sprite of the given rows at the wrapped origin of `vx`, `vy` (R122). -/
def State.drawAt (s : State) (vx vy : Byte) (rows : List Byte) : State :=
  let r := drawSprite (s.disp, false) rows (vy.toNat % 32) (vx.toNat % 64)
  (s.setDisp r.1).setReg VF (flagByte r.2)

/-- 00E0 `CLS` (R121). -/
def execCls (s : State) : Host.Outcome State Fault Refusal := .next (s.setDisp clearDisplay)

/-- DXYN `DRW Vx, Vy, N`: the origin registers are read first, the range check stands before any write (R122). -/
def execDrw (x y : Reg) (n : Nibble) (s : State) : Host.Outcome State Fault Refusal :=
  .next (s.guardAccess n.toNat (s.drawAt (s.reg x) (s.reg y) (s.readBytes s.I.toNat n.toNat)))

end Sys2Proof.Machine
end

