-- ==== Sys2Proof/Machine/InputTimer.lean ====
section
/-! DEFINITION. Keypad and timer instructions (45_input_timer). -/

namespace Sys2Proof.Machine

/-- EX9E `SKP Vx` (R141). -/
def execSkp (x : Reg) (s : State) : Host.Outcome State Fault Refusal :=
  match s.keyPressed? x with
  | some p => .next (s.skipIf p)
  | none => .next (s.raise .keyIndexOutOfRange (zextByte (s.reg x)))

/-- EXA1 `SKNP Vx` (R142). -/
def execSknp (x : Reg) (s : State) : Host.Outcome State Fault Refusal :=
  match s.keyPressed? x with
  | some p => .next (s.skipIf (!p))
  | none => .next (s.raise .keyIndexOutOfRange (zextByte (s.reg x)))

/-- FX0A `LD Vx, K`: rewind while no key is held, else latch a held key (R143). -/
def execLdVxK (x : Reg) (s : State) : Host.Outcome State Fault Refusal :=
  match s.heldKeys with
  | [] => .next (s.setPc (s.pc - 2))
  | k :: ks => .next ((s.setReg x (BitVec.ofNat 8 (s.chooseKey k ks).val)).countDraw)

/-- FX07 `LD Vx, DT` (R144). -/
def execLdVxDT (x : Reg) (s : State) : Host.Outcome State Fault Refusal := .next (s.setReg x s.DT)

/-- FX15 `LD DT, Vx` (R145). -/
def execLdDTVx (x : Reg) (s : State) : Host.Outcome State Fault Refusal := .next (s.setDT (s.reg x))

/-- FX18 `LD ST, Vx` (R146). -/
def execLdSTVx (x : Reg) (s : State) : Host.Outcome State Fault Refusal := .next (s.setST (s.reg x))

end Sys2Proof.Machine
end

