-- ==== Sys2Proof/Machine/MemoryIndex.lean ====
section
/-! DEFINITION. Index register, BCD and block transfer (44_memory_index). None changes `I` but the first three. -/

namespace Sys2Proof.Machine

/-- ANNN `LD I, NNN` (R131). -/
def execLdI (nnn : Addr12) (s : State) : Host.Outcome State Fault Refusal := .next (s.setI (zextAddr nnn))

/-- FX1E `ADD I, Vx`: modulo 2^16, no flag (R132). -/
def execAddI (x : Reg) (s : State) : Host.Outcome State Fault Refusal :=
  .next (s.setI (s.I + zextByte (s.reg x)))

/-- FX29 `LD F, Vx` (R133). -/
def execLdF (x : Reg) (s : State) : Host.Outcome State Fault Refusal := .next (s.setI (glyphAddr (s.reg x)))

/-- FX33 `LD B, Vx` (R134). -/
def execLdB (x : Reg) (s : State) : Host.Outcome State Fault Refusal :=
  .next (s.guardAccess 3 (s.storeBytes s.I.toNat (bcdDigits (s.reg x))))

/-- FX55 `LD [I], Vx` (R135). -/
def execStoreRegs (x : Reg) (s : State) : Host.Outcome State Fault Refusal :=
  .next (s.guardAccess (x.val + 1) (s.storeBytes s.I.toNat (s.regsUpTo x)))

/-- FX65 `LD Vx, [I]` (R136). -/
def execLoadRegs (x : Reg) (s : State) : Host.Outcome State Fault Refusal :=
  .next (s.guardAccess (x.val + 1) (s.loadRegsUpTo x))

end Sys2Proof.Machine
end

