-- ==== Sys2Proof/Machine/Step.lean ====
section
/-! DEFINITION. One cycle (40_cycle R80): one assertion of `step`. -/

namespace Sys2Proof.Machine

/-- `Cycle(S, keys)` (R80): a halted core does not change (R86); the core must not be stepped after a refused load
(20_memory R56); otherwise FETCH, ADVANCE, EXECUTE, TIMERS, and a fault in stage 1 or 3 commits only the latch. -/
def step (s : State) : Host.Outcome State Fault Refusal :=
  if s.fault then .next s
  else if s.loadError then .fault .loadError
  else
    match s.fetchWord with
    | none => .next (s.raise .fetchOutOfRange s.pc)
    | some w =>
      match decode s.cfg w with
      | .ok i => finishCycle s (exec i (s.beginExecute w))
      | .error _ => finishCycle s (.next ((s.beginExecute w).reportUnknown w))

/-- The state with a table word's two bytes stored at `pc`, where the next fetch reads them (`pc` at most 0xFFE; a
larger `pc` fetches nothing, R81, and the state is then unchanged). It stands for a program load (log entry 8). -/
def State.withFetchWord (s : State) (nbits w : Nat) : State :=
  if s.pc.toNat > 0xFFE then s else s.storeBytes s.pc.toNat (tableBytes nbits w)

end Sys2Proof.Machine
end

