-- ==== Sys2Proof/Machine/HostPort.lean ====
section
/-! DEFINITION. What the host can do to the core and read from it between cycles (10_state R30, R31). These are not
steps (log entry 16). -/

namespace Sys2Proof.Machine

/-- The port `reset`: the whole reset state again, from any state (70 R180). The parameters are the machine's, and
the host's coming key levels and the count of draws are outside it, so these three stay (log entry 16). -/
def State.hostReset (s : State) : State :=
  { State.resetWith s.cfg with keysIn := s.keysIn, draws := s.draws }

/-- The port `load`: an image copied to 0x200 up, nothing else changed (20_memory R55); an image over 3584 bytes
writes nothing and sets `load_error` (R56); after the first cycle there is no meaning (R57). -/
def State.hostLoad (s : State) (image : List Byte) : Host.Outcome State Fault Refusal :=
  if s.started || s.fault then .refused .loadAfterFirstCycle
  else if image.length > maxProg then .next { s with loadError := true }
  else .next (s.storeBytes progBase image)

/-- The host decides the levels of the coming cycles on the port `keys` (R26, R30). -/
def State.hostKeys (s : State) (levels : List (BitVec 16)) : State := { s with keysIn := levels }

/-- The port `fb(x, y)`: the cell at column x, row y (R30). -/
def State.fb (s : State) (x : Fin 64) (y : Fin 32) : Bool := s.disp.cell y.val x.val

/-- The port `unknown_op` (R29, R30). -/
def State.unknownOp (s : State) : Bool := s.unknown.isSome

end Sys2Proof.Machine
end

