-- ==== Sys2Proof/Safety.lean ====
section
/-! DEFINITION. What claims call a running core, the invariant of its states, and the parts of the state that a
frame compares. -/

namespace Sys2Proof.Machine

/-- The core is not halted and no load was refused: the premise of a claim about a run (70 R187, 40 R86). -/
abbrev State.Running (s : State) : Prop := s.fault = false ∧ s.loadError = false

/-- The invariant: the memory's canonical form, the bounds of 10_state R33 on `pc` and the live stack entries, and
the fault latch and outputs as R21, R151, 40 R86 and 20_memory R56 say they can stand. `sp` at most 16 is in its
type. -/
abbrev State.Inv (s : State) : Prop :=
  Memory.wf s.cfg s.mem ∧
  s.pc.toNat ≤ 0x10FE ∧
  (∀ k : Fin 16, k.val < s.sp.val → 2 ≤ (s.stack[k]).toNat ∧ (s.stack[k]).toNat ≤ 0x1000) ∧
  (s.fault = false → s.faultCode = 0 ∧ s.faultInfo = 0) ∧
  (s.fault = true → 1 ≤ s.faultCode.toNat ∧ s.faultCode.toNat ≤ 5 ∧ s.tone = false ∧ s.unknown = none) ∧
  (s.loadError = true → s.started = false ∧ s.fault = false)

/-! ### The parts a frame compares, one for each kind of state of 10_state -/

/-- Every general register outside `dest` is unchanged. -/
abbrev SameRegsBut (dest : Reg → Prop) (s t : State) : Prop := ∀ r, ¬ dest r → t.reg r = s.reg r

/-- Every byte of memory outside `dest` reads as before. -/
abbrev SameBytesBut (dest : Nat → Prop) (s t : State) : Prop := ∀ a, ¬ dest a → t.readByte a = s.readByte a

/-- Every display cell outside `dest` (row, column) is unchanged. -/
abbrev SameCellsBut (dest : Nat → Nat → Prop) (s t : State) : Prop :=
  ∀ y x, ¬ dest y x → t.disp.cell y x = s.disp.cell y x

/-- The call stack and its pointer are unchanged. -/
abbrev SameStack (s t : State) : Prop := t.sp = s.sp ∧ t.stack = s.stack

/-- Both timers are unchanged. -/
abbrev SameTimers (s t : State) : Prop := t.DT = s.DT ∧ t.ST = s.ST

/-- The fault latch is unchanged. -/
abbrev SameLatch (s t : State) : Prop :=
  t.fault = s.fault ∧ t.faultCode = s.faultCode ∧ t.faultInfo = s.faultInfo

/-- What no instruction writes: the sampled keys, the word, the tone and load outputs, the host's coming keys, the
run flag and the parameters. -/
abbrev SameOutside (s t : State) : Prop :=
  t.key = s.key ∧ t.instr = s.instr ∧ t.loadError = s.loadError ∧ t.keysIn = s.keysIn ∧
  t.started = s.started ∧ t.cfg = s.cfg

end Sys2Proof.Machine
end

