-- ==== Sys2Proof/Certificates/Slice0/Obligations.lean ====
section
/-! DEFINITION. The statements for the provers, from the numbered rules of spec/. -/

open Sys2Proof Sys2Proof.Machine

/-! ### What a statement's next state may differ in -/

namespace Sys2Proof.Machine

/-- Nothing but general registers changed. -/
abbrev OnlyRegs (s t : State) : Prop := t = { s with regs := t.regs }

/-- Nothing but `pc` changed. -/
abbrev OnlyPc (s t : State) : Prop := t = { s with pc := t.pc }

/-- Nothing but `I` changed. -/
abbrev OnlyIndex (s t : State) : Prop := t = { s with I := t.I }

/-- Nothing but memory changed. -/
abbrev OnlyMem (s t : State) : Prop := t = { s with mem := t.mem }

/-- The state of `s` with the fault latched, the outputs of a faulting cycle, and nothing else changed
(40 R86, 60 R159). -/
abbrev Latched (s : State) (code : BitVec 3) (info : Word) : State :=
  { s with fault := true, faultCode := code, faultInfo := info, tone := false, unknown := none }

/-- How many bytes of memory an instruction's data access covers, from `I` up (20_memory R46): none for every
instruction but DXYN, FX33, FX55 and FX65. -/
def dataBytes : Instr → Nat
  | .drw _ _ n => n.toNat
  | .ldB _ => 3
  | .storeRegs x => x.val + 1
  | .loadRegs x => x.val + 1
  | _ => 0

/-- The data access of `i` would leave memory (20_memory R42, 60 R153). -/
abbrev AccessLeavesMemory (i : Instr) (s : State) : Prop :=
  0 < dataBytes i ∧ s.I.toNat + dataBytes i - 1 > 0xFFF

/-- The addresses `i` stores to: FX33 and FX55 only, from `I` up, when the access stays in memory. -/
def StoresTo (i : Instr) (s : State) (a : Nat) : Prop :=
  match i with
  | .ldB _ => ¬ AccessLeavesMemory i s ∧ s.I.toNat ≤ a ∧ a < s.I.toNat + 3
  | .storeRegs x => ¬ AccessLeavesMemory i s ∧ s.I.toNat ≤ a ∧ a < s.I.toNat + x.val + 1
  | _ => False

/-- The registers `i` may write (10_state R12): its destination `x[X]`, `x[0]..x[X]` for FX65, and VF for the six
flag writers of R11. -/
def MayWriteReg : Instr → Reg → Prop
  | .ldImm x _, r | .addImm x _, r | .ldReg x _, r | .orReg x _, r | .andReg x _, r | .xorReg x _, r => r = x
  | .rnd x _, r | .ldVxDT x, r | .ldVxK x, r => r = x
  | .addReg x _, r | .subReg x _, r | .shr x _, r | .subnReg x _, r | .shl x _, r => r = x ∨ r = VF
  | .drw _ _ _, r => r = VF
  | .loadRegs x, r => r ≤ x
  | _, _ => False

/-- The cells DXYN may change: the 8 columns and N rows from the wrapped origin; 00E0 may change every cell
(10_state R25, 43 R120). -/
def MayWriteCell (i : Instr) (s : State) (y x : Nat) : Prop :=
  match i with
  | .cls => True
  | .drw vx vy n =>
    (s.reg vy).toNat % 32 ≤ y ∧ y < (s.reg vy).toNat % 32 + n.toNat ∧
      (s.reg vx).toNat % 64 ≤ x ∧ x < (s.reg vx).toNat % 64 + 8
  | _ => False

/-- The instructions that may change `pc` in stage 3 (10_state R14). -/
def MayWritePc : Instr → Prop
  | .jp _ | .call _ | .ret | .jpV0 _ | .seImm _ _ | .sneImm _ _ | .seReg _ _ _ | .sneReg _ _ _ => True
  | .skp _ | .sknp _ | .ldVxK _ => True
  | _ => False

/-- The cell (y, x) is one DXYN toggles: inside the display, within the sprite at the wrapped origin, and under a 1
bit (43 R122, closed form). -/
abbrev SpriteToggles (s : State) (vx vy : Reg) (n : Nibble) (y x : Nat) : Prop :=
  y < 32 ∧ x < 64 ∧
  (s.reg vy).toNat % 32 ≤ y ∧ y < (s.reg vy).toNat % 32 + n.toNat ∧
  (s.reg vx).toNat % 64 ≤ x ∧ x ≤ (s.reg vx).toNat % 64 + 7 ∧
  (s.readByte (s.I.toNat + (y - (s.reg vy).toNat % 32))).getLsbD (7 - (x - (s.reg vx).toNat % 64)) = true

end Sys2Proof.Machine

/-! ### Reset, load, and the invariant -/

/-- 10_state R32: the state after reset, element by element, for every value of the parameters. `keysIn`, `started`
and `draws` are the model's own (log entries 1, 3, 7) and are not spoken of. -/
def Obligations.ResetPutsEveryElementAtItsValue : Prop :=
  ∀ c : Config,
    (∀ r, (State.resetWith c).reg r = 0) ∧ (State.resetWith c).pc = 0x0200 ∧ (State.resetWith c).I = 0 ∧
    (State.resetWith c).sp = 0 ∧ (∀ k : Fin 16, (State.resetWith c).stack[k] = 0) ∧
    (State.resetWith c).DT = 0 ∧ (State.resetWith c).ST = 0 ∧
    (∀ a, a ≤ 0xFFF → ¬ (0x050 ≤ a ∧ a ≤ 0x09F) → (State.resetWith c).readByte a = 0) ∧
    (∀ i : Fin 80, (State.resetWith c).readByte (0x050 + i.val) = c.font[i]) ∧
    (∀ (x : Fin 64) (y : Fin 32), (State.resetWith c).fb x y = false) ∧
    (∀ k : Fin 16, (State.resetWith c).key.getLsbD k.val = false) ∧ (State.resetWith c).instr = 0 ∧
    (State.resetWith c).fault = false ∧ (State.resetWith c).faultCode = 0 ∧ (State.resetWith c).faultInfo = 0 ∧
    (State.resetWith c).tone = false ∧ (State.resetWith c).unknownOp = false ∧
    (State.resetWith c).loadError = false ∧ State.reset = State.resetWith Config.standard

/-- 70 R180: asserting `reset` gives the reset state from any state, a halted one included; that the parameters, the
host's coming keys and the count of draws stay is the model's choice (log entry 16). -/
def Obligations.HostResetRestoresTheResetState : Prop :=
  ∀ s : State, s.hostReset = { State.resetWith s.cfg with keysIn := s.keysIn, draws := s.draws } ∧
    s.hostReset.Running ∧ ∀ a, s.hostReset.readByte a = (State.resetWith s.cfg).readByte a

/-- The invariant holds after reset, for every value of the parameters. -/
def Obligations.ResetMeetsTheInvariant : Prop :=
  ∀ c : Config, (State.resetWith c).Inv

/-- Every step keeps the invariant: the memory's canonical form, the bounds of 10_state R33, the latch and outputs. -/
def Obligations.StepKeepsTheInvariant : Prop :=
  ∀ s t : State, s.Inv → step s = .next t → t.Inv

/-- The host's actions keep the invariant. -/
def Obligations.HostActionsKeepTheInvariant : Prop :=
  ∀ s : State, s.Inv → s.hostReset.Inv ∧ (∀ ks, (s.hostKeys ks).Inv) ∧
    ∀ image t, s.hostLoad image = .next t → t.Inv

/-- 20_memory R55: an image of at most 3584 bytes is copied verbatim to 0x200 up, and nothing else changes. -/
def Obligations.LoadCopiesTheImage : Prop :=
  ∀ (s : State) (image : List Byte), s.started = false → s.fault = false → image.length ≤ 3584 →
    ∃ t, s.hostLoad image = .next t ∧ OnlyMem s t ∧
      (∀ (i : Nat) (h : i < image.length), t.readByte (0x200 + i) = image[i]) ∧
      SameBytesBut (fun a => 0x200 ≤ a ∧ a < 0x200 + image.length) s t

/-- 20_memory R56: a longer image writes nothing and sets `load_error`, and a running core with `load_error` set is
not stepped: the step is the fault `loadError`. That `load_error` stays set until reset is the model's choice (log
entry 6). -/
def Obligations.OversizedLoadIsRefusedAndNotStepped : Prop :=
  ∀ (s : State) (image : List Byte), s.started = false → s.fault = false → image.length > 3584 →
    s.hostLoad image = .next { s with loadError := true } ∧
    step { s with loadError := true } = .fault .loadError

/-- 20_memory R57: a load after the first cycle has no meaning. -/
def Obligations.LoadAfterTheFirstCycleIsRefused : Prop :=
  ∀ (s t : State) (image : List Byte), s.Running → step s = .next t →
    t.hostLoad image = .refused .loadAfterFirstCycle

/-- 70 R185, 95 V-RST-3: stepped with nothing loaded, the core runs the zero words as unknown words until `pc`
passes 0xFFE, and then latches FetchOutOfRange. -/
def Obligations.UnloadedCoreRunsUnknownWordsThenFaults : Prop :=
  (∀ n, 1 ≤ n → n ≤ 1792 → ∃ t, Sys2Proof.core.run n State.reset = .next t ∧
    t.pc.toNat = 0x200 + 2 * n ∧ t.unknown = some 0 ∧ t.fault = false ∧ ∀ r, t.reg r = 0) ∧
  ∃ t, Sys2Proof.core.run 1793 State.reset = .next t ∧ t.fault = true ∧ t.faultCode = 1 ∧ t.faultInfo = 0x1000

/-! ### Decoding and encoding -/

/-- 30 R60, R62, R65: decoding the word of a well-formed instruction gives it back, every operand at every value; so
does decoding its two bytes, which leaves the bytes that follow; and no other well-formed instruction has that word. -/
def Obligations.DecodeOfEncodeIsTheInstruction : Prop :=
  ∀ (c : Config) (i : Instr), i.wellFormed c = true →
    decode c (encode i) = .ok i ∧
    (∀ rest, decodeBytes c (encodeBytes i ++ rest) = .ok (i, rest)) ∧
    ∀ j : Instr, j.wellFormed c = true → encode j = encode i → j = i

/-- Each word has one meaning: a word that decodes is the encoding of what it decodes to, and that is well-formed. -/
def Obligations.EncodeOfDecodeIsTheWord : Prop :=
  ∀ (c : Config) (w : Word) (i : Instr), decode c w = .ok i → encode i = w ∧ i.wellFormed c = true

/-- 30 R65: a word selects a row exactly when `w AND mask = match`; every row's word decodes to an instruction of
that row, and the rows are mutually exclusive. -/
def Obligations.OpcodeMapRowsSelectByMaskAndMatch : Prop :=
  ∀ (c : Config) (w : Word) (i : Instr), i.wellFormed c = true →
    (w &&& opMask i = opMatch i ↔ ∃ j, decode c w = .ok j ∧ opMatch j = opMatch i ∧ opMask j = opMask i)

/-- 30 R67: the unknown words are exactly the classes (a) to (e). -/
def Obligations.UnknownWordsAreExactlyTheFiveClasses : Prop :=
  ∀ (c : Config) (w : Word),
    (decode c w = .error .unknownFamily0 ↔ opField w = 0x0 ∧ w ≠ 0x00E0 ∧ w ≠ 0x00EE) ∧
    (decode c w = .error .unknownFamily8 ↔ opField w = 0x8 ∧
      nField w ∈ [0x8#4, 0x9#4, 0xA#4, 0xB#4, 0xC#4, 0xD#4, 0xF#4]) ∧
    (decode c w = .error .unknownFamilyE ↔ opField w = 0xE ∧ nnField w ∉ [0x9E#8, 0xA1#8]) ∧
    (decode c w = .error .unknownFamilyF ↔ opField w = 0xF ∧
      nnField w ∉ [0x07#8, 0x0A#8, 0x15#8, 0x18#8, 0x1E#8, 0x29#8, 0x33#8, 0x55#8, 0x65#8]) ∧
    (decode c w = .error .unknownFamilyC ↔ opField w = 0xC ∧ c.rndMode = .unknown) ∧
    decode c w ≠ .error .truncated

/-- 30 R62, R65, R68, R69: the source's seven example words, at least one word of each of the sixteen families, an
alias, and words that are unknown. -/
def Obligations.ExampleWordsDecode : Prop :=
  decode Config.standard 0x00E0 = .ok .cls ∧ decode Config.standard 0x600A = .ok (.ldImm 0 0x0A) ∧
  decode Config.standard 0x6105 = .ok (.ldImm 1 0x05) ∧ decode Config.standard 0xD015 = .ok (.drw 0 1 5) ∧
  decode Config.standard 0x2204 = .ok (.call 0x204) ∧ decode Config.standard 0x00EE = .ok .ret ∧
  decode Config.standard 0xF00A = .ok (.ldVxK 0) ∧ decode Config.standard 0x8124 = .ok (.addReg 1 2) ∧
  decode Config.standard 0xF433 = .ok (.ldB 4) ∧ decode Config.standard 0xE59E = .ok (.skp 5) ∧
  decode Config.standard 0x5127 = .ok (.seReg 1 2 7) ∧ decode Config.standard 0xC10F = .ok (.rnd 1 0x0F) ∧
  decode Config.standard 0x1234 = .ok (.jp 0x234) ∧ decode Config.standard 0x332A = .ok (.seImm 3 0x2A) ∧
  decode Config.standard 0x432B = .ok (.sneImm 3 0x2B) ∧ decode Config.standard 0x7102 = .ok (.addImm 1 0x02) ∧
  decode Config.standard 0x9120 = .ok (.sneReg 1 2 0) ∧ decode Config.standard 0xA2F0 = .ok (.ldI 0x2F0) ∧
  decode Config.standard 0xB300 = .ok (.jpV0 0x300) ∧
  decode Config.standard 0x01E0 = .error .unknownFamily0 ∧ decode Config.standard 0x8128 = .error .unknownFamily8

/-- 30 R60, 20_memory R44: the table word of the host is laid out big-endian and decoded as that word under the default
parameters, and `withFetchWord` puts it where the next fetch reads it. That decodeTableWord uses the default parameters
is the model's choice (log entry 17), and withFetchWord stands for a load (log entry 8). -/
def Obligations.TableWordIsFetchedAndDecodedAsItself : Prop :=
  (∀ w : Word, decodeTableWord 16 w.toNat = (decode Config.standard w).toOption) ∧
  ∀ (s : State) (w : Word), s.pc.toNat ≤ 0xFFE → (s.withFetchWord 16 w.toNat).fetchWord = some w ∧
    OnlyMem s (s.withFetchWord 16 w.toNat)

/-! ### The cycle -/

/-- 40 R80 to R83, R85: a running core whose word at `pc` decodes to `i` steps to `exec i` on the advanced state,
followed by the timer stage, or, if stage 3 raised a fault, to the state at the start of the cycle with the latch. The
key sample, the flag `started`, the cut into exec and step, and the kept `instr` are the model's (log entries 1, 7, 9, 18). -/
def Obligations.StepRunsTheDecodedInstruction : Prop :=
  ∀ (s : State) (i : Instr), s.Running → s.pc.toNat ≤ 0xFFE →
    decode s.cfg (s.readByte s.pc.toNat ++ s.readByte (s.pc.toNat + 1)) = .ok i →
    ∃ b u, b = { s.sampleKeys with
        pc := s.pc + 2, instr := s.readByte s.pc.toNat ++ s.readByte (s.pc.toNat + 1),
        tone := false, unknown := none, started := true } ∧
      exec i b = .next u ∧
      step s = .next (if u.fault then Latched s u.faultCode u.faultInfo else u.timerStage)

/-- 40 R81: a fetch needs `pc <= 0xFFE` and reads `mem[pc]` as bits 15:8, `mem[pc+1]` as bits 7:0; otherwise the
cycle raises FetchOutOfRange(pc). -/
def Obligations.FetchReadsBigEndianOrFaults : Prop :=
  ∀ s : State,
    (s.pc.toNat ≤ 0xFFE → s.fetchWord = some (s.readByte s.pc.toNat ++ s.readByte (s.pc.toNat + 1))) ∧
    (s.pc.toNat > 0xFFE → s.Running → step s = .next (Latched s 1 s.pc))

/-- 40 R84: an unknown word only advances `pc`, is reported for this cycle, and lets the timers tick; a cycle that
executes an instruction leaves `unknown_op` 0. The key sample, the kept word `instr` and the flag `started` are the
model's choices (log entries 1, 18, 7). -/
def Obligations.UnknownWordIsAReportedNoOp : Prop :=
  ∀ s : State, s.Running → s.pc.toNat ≤ 0xFFE →
    (∀ w e, s.fetchWord = some w → decode s.cfg w = .error e →
      step s = .next { s.sampleKeys with
        pc := s.pc + 2, instr := w, unknown := some w, started := true,
        tone := s.ST == 1, DT := BitVec.ofNat 8 (s.DT.toNat - 1), ST := BitVec.ofNat 8 (s.ST.toNat - 1) }) ∧
    (∀ w i t, s.fetchWord = some w → decode s.cfg w = .ok i → step s = .next t → t.unknown = none)

/-- 40 R86, 60 R159: a faulting cycle commits nothing but the latch, and a halted core never changes. -/
def Obligations.FaultingCycleCommitsOnlyTheLatch : Prop :=
  (∀ s t : State, s.fault = false → step s = .next t → t.fault = true → t = Latched s t.faultCode t.faultInfo) ∧
  (∀ s : State, s.fault = true → step s = .next s)

/-- 60 R151 to R156: stage 3 raises a fault exactly on the table's conditions, with the table's code and info. -/
def Obligations.ExecuteFaultsExactlyOnTheTableConditions : Prop :=
  ∀ (i : Instr) (s t : State), s.fault = false → exec i s = .next t →
    (AccessLeavesMemory i s → t = Latched s 2 (BitVec.ofNat 16 (max s.I.toNat 0x1000))) ∧
    (∀ nnn, i = .call nnn → s.sp = 16 → t = Latched s 3 16) ∧
    (i = .ret → s.sp = 0 → t = Latched s 4 0) ∧
    (∀ x, i = .skp x ∨ i = .sknp x → (s.reg x).toNat > 15 → t = Latched s 5 ((s.reg x).setWidth 16)) ∧
    (t.fault = true → AccessLeavesMemory i s ∨ (∃ nnn, i = .call nnn ∧ s.sp = 16) ∨ (i = .ret ∧ s.sp = 0) ∨
      ∃ x, (i = .skp x ∨ i = .sknp x) ∧ (s.reg x).toNat > 15)

/-- 60 R164, R165, 40 R85: in every non-faulting cycle, whatever word it runs, each timer goes down by one with a
floor of zero, from the value FX15 or FX18 wrote when the cycle ran one of these; `tone` is 1 exactly when the sound
timer held 1 before that decrement. -/
def Obligations.TimersTickOncePerCycle : Prop :=
  ∀ (s t : State) (w : Word), s.Running → s.fetchWord = some w → step s = .next t → t.fault = false →
    ((∀ x, decode s.cfg w ≠ .ok (.ldDTVx x)) → t.DT.toNat = s.DT.toNat - 1) ∧
    ((∀ x, decode s.cfg w ≠ .ok (.ldSTVx x)) → t.ST.toNat = s.ST.toNat - 1 ∧ t.tone = (s.ST == 1)) ∧
    (∀ x, decode s.cfg w = .ok (.ldDTVx x) → t.DT.toNat = (s.reg x).toNat - 1) ∧
    (∀ x, decode s.cfg w = .ok (.ldSTVx x) → t.ST.toNat = (s.reg x).toNat - 1 ∧ t.tone = (s.reg x == 1))

/-- 10_state R26, 60 R167: the keypad is sampled once per cycle from the host's levels, and the core never writes
it. That the host's levels are a list in State, held when it is empty, is the model's choice (log entry 1). -/
def Obligations.KeypadIsTheHostsSampleAndNeverWritten : Prop :=
  ∀ (s t : State), s.Running → step s = .next t → t.fault = false →
    (s.keysIn = [] → t.key = s.key ∧ t.keysIn = []) ∧
    (∀ k ks, s.keysIn = k :: ks → t.key = k ∧ t.keysIn = ks)

/-! ### Register load, arithmetic, logic, shift, random (41) -/

/-- 41 R91, R93: load immediate and register copy; no flag, any register may be the destination. -/
def Obligations.LoadImmediateAndCopyWriteTheDestination : Prop :=
  ∀ (c : Config) (s : State) (x y : Reg) (nn : Byte),
    decode c (wordXI 0x6 x nn) = .ok (.ldImm x nn) ∧ decode c (wordXYN 0x8 x y 0x0) = .ok (.ldReg x y) ∧
    (∃ t, exec (.ldImm x nn) s = .next t ∧ t.reg x = nn ∧ SameRegsBut (· = x) s t ∧ OnlyRegs s t) ∧
    (∃ t, exec (.ldReg x y) s = .next t ∧ t.reg x = s.reg y ∧ SameRegsBut (· = x) s t ∧ OnlyRegs s t)

/-- 41 R92: add immediate, modulo 256, VF not written unless it is the destination. -/
def Obligations.AddImmediateWrapsWithoutFlag : Prop :=
  ∀ (c : Config) (s : State) (x : Reg) (nn : Byte),
    decode c (wordXI 0x7 x nn) = .ok (.addImm x nn) ∧
    ∃ t, exec (.addImm x nn) s = .next t ∧ (t.reg x).toNat = ((s.reg x).toNat + nn.toNat) % 256 ∧
      SameRegsBut (· = x) s t ∧ OnlyRegs s t

/-- 41 R94, R95, R96: OR, AND, XOR bit by bit; VF not reset. -/
def Obligations.LogicIsBitwiseAndKeepsFlag : Prop :=
  ∀ (c : Config) (s : State) (x y : Reg),
    decode c (wordXYN 0x8 x y 0x1) = .ok (.orReg x y) ∧ decode c (wordXYN 0x8 x y 0x2) = .ok (.andReg x y) ∧
    decode c (wordXYN 0x8 x y 0x3) = .ok (.xorReg x y) ∧
    (∃ t, exec (.orReg x y) s = .next t ∧
      (∀ k, k < 8 → (t.reg x).getLsbD k = ((s.reg x).getLsbD k || (s.reg y).getLsbD k)) ∧
      SameRegsBut (· = x) s t ∧ OnlyRegs s t) ∧
    (∃ t, exec (.andReg x y) s = .next t ∧
      (∀ k, k < 8 → (t.reg x).getLsbD k = ((s.reg x).getLsbD k && (s.reg y).getLsbD k)) ∧
      SameRegsBut (· = x) s t ∧ OnlyRegs s t) ∧
    (∃ t, exec (.xorReg x y) s = .next t ∧
      (∀ k, k < 8 → (t.reg x).getLsbD k = ((s.reg x).getLsbD k ^^ (s.reg y).getLsbD k)) ∧
      SameRegsBut (· = x) s t ∧ OnlyRegs s t)

/-- 41 R97: add with carry out, the flag last, so that it wins when X = 0xF. -/
def Obligations.AddSetsSumAndCarry : Prop :=
  ∀ (c : Config) (s : State) (x y : Reg),
    decode c (wordXYN 0x8 x y 0x4) = .ok (.addReg x y) ∧
    ∃ t, exec (.addReg x y) s = .next t ∧
      (x ≠ VF → (t.reg x).toNat = ((s.reg x).toNat + (s.reg y).toNat) % 256) ∧
      t.reg VF = (if (s.reg x).toNat + (s.reg y).toNat > 255 then 1 else 0) ∧
      SameRegsBut (fun r => r = x ∨ r = VF) s t ∧ OnlyRegs s t

/-- 41 R98, R100: the two subtractions, VF = not borrow, equality giving 1. -/
def Obligations.SubtractionsSetDifferenceAndNotBorrow : Prop :=
  ∀ (c : Config) (s : State) (x y : Reg),
    decode c (wordXYN 0x8 x y 0x5) = .ok (.subReg x y) ∧ decode c (wordXYN 0x8 x y 0x7) = .ok (.subnReg x y) ∧
    (∃ t, exec (.subReg x y) s = .next t ∧
      (x ≠ VF → ((t.reg x).toNat : Int) = ((s.reg x).toNat - (s.reg y).toNat : Int) % 256) ∧
      t.reg VF = (if (s.reg x).toNat ≥ (s.reg y).toNat then 1 else 0) ∧
      SameRegsBut (fun r => r = x ∨ r = VF) s t ∧ OnlyRegs s t) ∧
    (∃ t, exec (.subnReg x y) s = .next t ∧
      (x ≠ VF → ((t.reg x).toNat : Int) = ((s.reg y).toNat - (s.reg x).toNat : Int) % 256) ∧
      t.reg VF = (if (s.reg y).toNat ≥ (s.reg x).toNat then 1 else 0) ∧
      SameRegsBut (fun r => r = x ∨ r = VF) s t ∧ OnlyRegs s t)

/-- 41 R99, R101: the shifts by one bit of the operand SHIFT_SOURCE names, VF = the bit shifted out. -/
def Obligations.ShiftsMoveOneBitIntoFlag : Prop :=
  ∀ (c : Config) (s : State) (x y : Reg) (v : Byte),
    decode c (wordXYN 0x8 x y 0x6) = .ok (.shr x y) ∧ decode c (wordXYN 0x8 x y 0xE) = .ok (.shl x y) ∧
    ((s.cfg.shiftSource = .vx ∧ v = s.reg x ∨ s.cfg.shiftSource = .vy ∧ v = s.reg y) →
      (∃ t, exec (.shr x y) s = .next t ∧ (x ≠ VF → (t.reg x).toNat = v.toNat / 2) ∧
        (t.reg VF).toNat = v.toNat % 2 ∧ SameRegsBut (fun r => r = x ∨ r = VF) s t ∧ OnlyRegs s t) ∧
      (∃ t, exec (.shl x y) s = .next t ∧ (x ≠ VF → (t.reg x).toNat = v.toNat * 2 % 256) ∧
        (t.reg VF).toNat = v.toNat / 128 ∧ SameRegsBut (fun r => r = x ∨ r = VF) s t ∧ OnlyRegs s t))

/-- 41 R102: under masked_draw the destination is the free byte of a fresh draw, masked; under unknown the word is
an unknown word. The model's choice (log entry 3): the byte is Config.freeByte, which nothing constrains, at the count
of draws, and that count, which the spec's machine does not have, goes up by one. -/
def Obligations.RandomIsAMaskedFreeDraw : Prop :=
  ∀ (c : Config) (s : State) (x : Reg) (nn : Byte),
    (c.rndMode = .unknown → decode c (wordXI 0xC x nn) = .error .unknownFamilyC) ∧
    (c.rndMode = .maskedDraw → decode c (wordXI 0xC x nn) = .ok (.rnd x nn)) ∧
    (s.cfg.rndMode = .maskedDraw → ∃ t, exec (.rnd x nn) s = .next t ∧
      t.reg x = Config.freeByte s.draws &&& nn ∧ t.reg x &&& ~~~ nn = 0 ∧ SameRegsBut (· = x) s t ∧
      t = { s with regs := t.regs, draws := s.draws + 1 })

/-- The model's choice (log entry 20): stage 3 given `.rnd` under RND_MODE = unknown, which the decoder never does,
reports the word as the unknown word it is (41 R102), and does nothing else. -/
def Obligations.RandomUnderUnknownReportsItsWord : Prop :=
  ∀ (s : State) (x : Reg) (nn : Byte), s.cfg.rndMode = .unknown →
    exec (.rnd x nn) s = .next { s with unknown := some (wordXI 0xC x nn) }

/-- 41 R103, 10_state R15: each of the five flag instructions leaves VF exactly 0 or 1, the flag and not the result
also when X = 0xF, computed from the operands as they were; the shifts under both values of SHIFT_SOURCE. -/
def Obligations.FlagIsWrittenLast : Prop :=
  ∀ (s : State) (y : Reg) (i : Instr) (t : State),
    i = .addReg VF y ∨ i = .subReg VF y ∨ i = .shr VF y ∨ i = .subnReg VF y ∨ i = .shl VF y →
    exec i s = .next t →
    (i = .addReg VF y → (t.reg VF).toNat = ((s.reg VF).toNat + (s.reg y).toNat) / 256) ∧
    (i = .subReg VF y → (t.reg VF).toNat = ((s.reg VF).toNat + 256 - (s.reg y).toNat) / 256) ∧
    (i = .subnReg VF y → (t.reg VF).toNat = ((s.reg y).toNat + 256 - (s.reg VF).toNat) / 256) ∧
    (i = .shr VF y → s.cfg.shiftSource = .vx → (t.reg VF).toNat = (s.reg VF).toNat % 2) ∧
    (i = .shr VF y → s.cfg.shiftSource = .vy → (t.reg VF).toNat = (s.reg y).toNat % 2) ∧
    (i = .shl VF y → s.cfg.shiftSource = .vx → (t.reg VF).toNat = (s.reg VF).toNat / 128) ∧
    (i = .shl VF y → s.cfg.shiftSource = .vy → (t.reg VF).toNat = (s.reg y).toNat / 128) ∧
    (t.reg VF).toNat ≤ 1

/-! ### Control flow (42) -/

/-- 42 R111: absolute jump. -/
def Obligations.JumpSetsPc : Prop :=
  ∀ (c : Config) (s : State) (nnn : Addr12),
    decode c (wordA 0x1 nnn) = .ok (.jp nnn) ∧
    ∃ t, exec (.jp nnn) s = .next t ∧ t.pc.toNat = nnn.toNat ∧ OnlyPc s t

/-- 42 R112: call with room pushes the advanced `pc` and jumps; with 16 entries it raises StackOverflow(16) and
changes nothing else. -/
def Obligations.CallPushesOrOverflows : Prop :=
  ∀ (c : Config) (s : State) (nnn : Addr12),
    decode c (wordA 0x2 nnn) = .ok (.call nnn) ∧
    (s.sp.val < 16 → ∃ t, exec (.call nnn) s = .next t ∧ t.pc.toNat = nnn.toNat ∧ t.sp.val = s.sp.val + 1 ∧
      (∀ k : Fin 16, t.stack[k] = if k.val = s.sp.val then s.pc else s.stack[k]) ∧
      t = { s with pc := t.pc, sp := t.sp, stack := t.stack }) ∧
    (s.sp = 16 → exec (.call nnn) s = .next (Latched s 3 16))

/-- 42 R113: return pops into `pc`, the entry keeping its value; on an empty stack it raises StackUnderflow(0) and
changes nothing else. -/
def Obligations.ReturnPopsOrUnderflows : Prop :=
  ∀ (c : Config) (s : State),
    decode c 0x00EE = .ok .ret ∧
    (∀ k : Fin 16, s.sp.val = k.val + 1 → ∃ t, exec .ret s = .next t ∧ t.sp.val = k.val ∧ t.pc = s.stack[k] ∧
      t = { s with pc := t.pc, sp := t.sp }) ∧
    (s.sp = 0 → exec .ret s = .next (Latched s 4 0))

/-- 42 R113 (corner cases), 95 E7: after a call, whatever only moved `pc` since, a return leaves the pointer and `pc`
as they were before the call. -/
def Obligations.ReturnUndoesCall : Prop :=
  ∀ (s u : State) (nnn : Addr12) (p : Word), s.sp.val < 16 → exec (.call nnn) s = .next u →
    ∃ t, exec .ret (u.setPc p) = .next t ∧ t.sp = s.sp ∧ t.pc = s.pc

/-- 42 R114: indexed jump by register 0, the sum not reduced to 12 bits. -/
def Obligations.IndexedJumpAddsRegisterZero : Prop :=
  ∀ (c : Config) (s : State) (nnn : Addr12),
    decode c (wordA 0xB nnn) = .ok (.jpV0 nnn) ∧
    ∃ t, exec (.jpV0 nnn) s = .next t ∧ t.pc.toNat = nnn.toNat + (s.reg 0).toNat ∧ OnlyPc s t

/-- 42 R115 to R118: each skip adds 2 to the advanced `pc` exactly when its condition holds, and changes nothing
else. The trailing nibble n of 5XYn and 9XYn plays no part. -/
def Obligations.SkipsAddTwoWhenTheConditionHolds : Prop :=
  ∀ (c : Config) (s : State) (x y : Reg) (n : Nibble) (nn : Byte),
    decode c (wordXI 0x3 x nn) = .ok (.seImm x nn) ∧ decode c (wordXI 0x4 x nn) = .ok (.sneImm x nn) ∧
    decode c (wordXYN 0x5 x y n) = .ok (.seReg x y n) ∧ decode c (wordXYN 0x9 x y n) = .ok (.sneReg x y n) ∧
    exec (.seImm x nn) s = .next (if s.reg x = nn then s.setPc (s.pc + 2) else s) ∧
    exec (.sneImm x nn) s = .next (if s.reg x ≠ nn then s.setPc (s.pc + 2) else s) ∧
    exec (.seReg x y n) s = .next (if s.reg x = s.reg y then s.setPc (s.pc + 2) else s) ∧
    exec (.sneReg x y n) s = .next (if s.reg x ≠ s.reg y then s.setPc (s.pc + 2) else s)

/-! ### Display (43) -/

/-- 43 R121: clear turns every cell off and touches nothing else. -/
def Obligations.ClearTurnsEveryCellOff : Prop :=
  ∀ (c : Config) (s : State),
    decode c 0x00E0 = .ok .cls ∧
    ∃ t, exec .cls s = .next t ∧ (∀ (x : Fin 64) (y : Fin 32), t.fb x y = false) ∧ t = { s with disp := t.disp }

/-- 43 R122: with every row in memory, a cell changes exactly when it lies under a 1 bit of the sprite at the wrapped
origin, VF is 1 exactly when a changed cell was on, and nothing else changes; with N > 0 and the last row beyond 0xFFF
MemoryOutOfRange is raised and nothing is drawn. -/
def Obligations.DrawTogglesExactlyTheSpritesCells : Prop :=
  ∀ (c : Config) (s : State) (x y : Reg) (n : Nibble),
    decode c (wordXYN 0xD x y n) = .ok (.drw x y n) ∧
    (n.toNat = 0 ∨ s.I.toNat + n.toNat - 1 ≤ 0xFFF → ∃ t, exec (.drw x y n) s = .next t ∧
      (∀ row col, row < 32 → col < 64 →
        (SpriteToggles s x y n row col → t.disp.cell row col = !s.disp.cell row col) ∧
        (¬ SpriteToggles s x y n row col → t.disp.cell row col = s.disp.cell row col)) ∧
      ((∃ row col, SpriteToggles s x y n row col ∧ s.disp.cell row col = true) → t.reg VF = 1) ∧
      ((¬ ∃ row col, SpriteToggles s x y n row col ∧ s.disp.cell row col = true) → t.reg VF = 0) ∧
      SameRegsBut (· = VF) s t ∧ t = { s with regs := t.regs, disp := t.disp }) ∧
    (0 < n.toNat → s.I.toNat + n.toNat - 1 > 0xFFF →
      exec (.drw x y n) s = .next (Latched s 2 (BitVec.ofNat 16 (max s.I.toNat 0x1000))))

/-- 43 R123: the same draw twice, with the same coordinates, `I` and memory, restores every cell; the first flag says
that a changed cell was on, the second that a changed cell was off. -/
def Obligations.DrawingTwiceRestoresTheDisplay : Prop :=
  ∀ (s t u : State) (x y : Reg) (n : Nibble), n.toNat = 0 ∨ s.I.toNat + n.toNat - 1 ≤ 0xFFF →
    exec (.drw x y n) s = .next t → t.reg x = s.reg x → t.reg y = s.reg y →
    exec (.drw x y n) t = .next u →
    u.disp = s.disp ∧
    (t.reg VF = 1 ↔ ∃ row col, SpriteToggles s x y n row col ∧ s.disp.cell row col = true) ∧
    (u.reg VF = 1 ↔ ∃ row col, SpriteToggles s x y n row col ∧ s.disp.cell row col = false) ∧
    ((¬ ∃ row col, SpriteToggles s x y n row col) → t.reg VF = 0 ∧ u.reg VF = 0)

/-! ### Index register, BCD, block transfer (44) -/

/-- 44 R131, R132, R133: the three writers of `I`; no flag, no access. -/
def Obligations.IndexInstructionsSetI : Prop :=
  ∀ (c : Config) (s : State) (x : Reg) (nnn : Addr12),
    decode c (wordA 0xA nnn) = .ok (.ldI nnn) ∧ decode c (wordXI 0xF x 0x1E) = .ok (.addI x) ∧
    decode c (wordXI 0xF x 0x29) = .ok (.ldF x) ∧
    (∃ t, exec (.ldI nnn) s = .next t ∧ t.I.toNat = nnn.toNat ∧ OnlyIndex s t) ∧
    (∃ t, exec (.addI x) s = .next t ∧ t.I.toNat = (s.I.toNat + (s.reg x).toNat) % 65536 ∧ OnlyIndex s t) ∧
    (∃ t, exec (.ldF x) s = .next t ∧ t.I.toNat = 0x50 + 5 * ((s.reg x).toNat % 16) ∧ OnlyIndex s t)

/-- 44 R134: the three decimal digits at `I`, `I+1`, `I+2`; when they would not all be in memory,
MemoryOutOfRange(max(I, 0x1000)) and nothing written. -/
def Obligations.BcdStoresThreeDigits : Prop :=
  ∀ (c : Config) (s : State) (x : Reg),
    decode c (wordXI 0xF x 0x33) = .ok (.ldB x) ∧
    (s.I.toNat + 2 ≤ 0xFFF → ∃ t, exec (.ldB x) s = .next t ∧
      (t.readByte s.I.toNat).toNat = (s.reg x).toNat / 100 ∧
      (t.readByte (s.I.toNat + 1)).toNat = (s.reg x).toNat / 10 % 10 ∧
      (t.readByte (s.I.toNat + 2)).toNat = (s.reg x).toNat % 10 ∧
      SameBytesBut (fun a => s.I.toNat ≤ a ∧ a ≤ s.I.toNat + 2) s t ∧ OnlyMem s t) ∧
    (s.I.toNat + 2 > 0xFFF →
      exec (.ldB x) s = .next (Latched s 2 (BitVec.ofNat 16 (max s.I.toNat 0x1000))))

/-- 44 R135: block store of x[0] to x[X] at `I` up, `I` unchanged; out of range it faults with nothing written. -/
def Obligations.BlockStoreWritesRegistersInOrder : Prop :=
  ∀ (c : Config) (s : State) (x : Reg),
    decode c (wordXI 0xF x 0x55) = .ok (.storeRegs x) ∧
    (s.I.toNat + x.val ≤ 0xFFF → ∃ t, exec (.storeRegs x) s = .next t ∧
      (∀ r : Reg, r ≤ x → t.readByte (s.I.toNat + r.val) = s.reg r) ∧
      SameBytesBut (fun a => s.I.toNat ≤ a ∧ a ≤ s.I.toNat + x.val) s t ∧ OnlyMem s t) ∧
    (s.I.toNat + x.val > 0xFFF →
      exec (.storeRegs x) s = .next (Latched s 2 (BitVec.ofNat 16 (max s.I.toNat 0x1000))))

/-- 44 R136: block load, registers above X kept, `I` and memory unchanged; out of range it faults with no register
written. -/
def Obligations.BlockLoadReadsRegistersInOrder : Prop :=
  ∀ (c : Config) (s : State) (x : Reg),
    decode c (wordXI 0xF x 0x65) = .ok (.loadRegs x) ∧
    (s.I.toNat + x.val ≤ 0xFFF → ∃ t, exec (.loadRegs x) s = .next t ∧
      (∀ r : Reg, r ≤ x → t.reg r = s.readByte (s.I.toNat + r.val)) ∧
      SameRegsBut (· ≤ x) s t ∧ OnlyRegs s t) ∧
    (s.I.toNat + x.val > 0xFFF →
      exec (.loadRegs x) s = .next (Latched s 2 (BitVec.ofNat 16 (max s.I.toNat 0x1000))))

/-- 44 R136 (corner cases): a block load after a block store at the same `I` restores x[0..X], whatever the registers
hold in between. -/
def Obligations.BlockLoadRestoresStoredRegisters : Prop :=
  ∀ (s t : State) (x : Reg) (v : Vector Byte 16), s.I.toNat + x.val ≤ 0xFFF →
    exec (.storeRegs x) s = .next t →
    ∃ u, exec (.loadRegs x) (t.setRegs v) = .next u ∧ (∀ r : Reg, r ≤ x → u.reg r = s.reg r) ∧
      ∀ r : Reg, ¬ r ≤ x → u.reg r = v[r]

/-- 20_memory R52: bytes stored at the advanced `pc` by FX33 or FX55 are what the very next cycle fetches. -/
def Obligations.StoredBytesAreFetchedNext : Prop :=
  ∀ (s t : State) (i : Instr), s.Running → s.pc.toNat + 3 ≤ 0xFFF →
    decode s.cfg (s.readByte s.pc.toNat ++ s.readByte (s.pc.toNat + 1)) = .ok i →
    s.I.toNat = s.pc.toNat + 2 → step s = .next t → t.fault = false →
    (∀ x, i = .storeRegs x → 1 ≤ x.val → t.fetchWord = some (s.reg 0 ++ s.reg 1)) ∧
    (∀ x, i = .ldB x → t.fetchWord =
      some (BitVec.ofNat 16 ((s.reg x).toNat / 100 * 256 + (s.reg x).toNat / 10 % 10)))

/-! ### Keypad and timers (45) -/

/-- 45 R141, R142: the key skips test the key the full register names, and raise KeyIndexOutOfRange above 15. -/
def Obligations.KeySkipsTestTheNamedKey : Prop :=
  ∀ (c : Config) (s : State) (x : Reg),
    decode c (wordXI 0xE x 0x9E) = .ok (.skp x) ∧ decode c (wordXI 0xE x 0xA1) = .ok (.sknp x) ∧
    (∀ k : Fin 16, (s.reg x).toNat = k.val →
      exec (.skp x) s = .next (if s.key.getLsbD k.val = true then s.setPc (s.pc + 2) else s) ∧
      exec (.sknp x) s = .next (if s.key.getLsbD k.val = false then s.setPc (s.pc + 2) else s)) ∧
    ((s.reg x).toNat > 15 →
      exec (.skp x) s = .next (Latched s 5 ((s.reg x).setWidth 16)) ∧
      exec (.sknp x) s = .next (Latched s 5 ((s.reg x).setWidth 16)))

/-- 45 R143: with no key held the advanced `pc` is rewound by 2 and nothing else changes; otherwise the destination
receives the index of a held key, of the one held key when there is only one, and `pc` stays advanced. Which of
several is a free value. The model's choice (log entry 3): the count of draws goes up by one. -/
def Obligations.KeyWaitRewindsOrLatchesAHeldKey : Prop :=
  ∀ (c : Config) (s : State) (x : Reg),
    decode c (wordXI 0xF x 0x0A) = .ok (.ldVxK x) ∧
    ((∀ k : Fin 16, s.key.getLsbD k.val = false) → exec (.ldVxK x) s = .next (s.setPc (s.pc - 2))) ∧
    (∀ j : Fin 16, s.key.getLsbD j.val = true → ∃ (t : State) (k : Fin 16), exec (.ldVxK x) s = .next t ∧
      s.key.getLsbD k.val = true ∧ (t.reg x).toNat = k.val ∧
      ((∀ m : Fin 16, s.key.getLsbD m.val = true → m = j) → k = j) ∧
      SameRegsBut (· = x) s t ∧ t = { s with regs := t.regs, draws := s.draws + 1 })

/-- 45 R143, 40 R87: a cycle whose word is FX0A and whose sample holds no key ends with `pc` at that same
instruction and every register as before, and its timers tick. -/
def Obligations.KeyWaitStallIsAFullCycle : Prop :=
  ∀ (s : State) (x : Reg), s.Running → s.fetchWord = some (wordXI 0xF x 0x0A) → s.sampleKeys.key = 0 →
    ∃ t, step s = .next t ∧ t.pc = s.pc ∧ (∀ r, t.reg r = s.reg r) ∧ t.fault = false ∧
      t.DT.toNat = s.DT.toNat - 1 ∧ t.ST.toNat = s.ST.toNat - 1 ∧ t.tone = (s.ST == 1)

/-- 45 R144, R145, R146: the timer instructions in stage 3, and what the timer stage of the same cycle then leaves of
the timer and the tone. -/
def Obligations.TimerInstructionsCopyThenTick : Prop :=
  ∀ (c : Config) (s : State) (x : Reg),
    decode c (wordXI 0xF x 0x07) = .ok (.ldVxDT x) ∧ decode c (wordXI 0xF x 0x15) = .ok (.ldDTVx x) ∧
    decode c (wordXI 0xF x 0x18) = .ok (.ldSTVx x) ∧
    (∃ t, exec (.ldVxDT x) s = .next t ∧ t.reg x = s.DT ∧ SameRegsBut (· = x) s t ∧ OnlyRegs s t ∧
      t.timerStage.DT.toNat = s.DT.toNat - 1) ∧
    (∃ t, exec (.ldDTVx x) s = .next t ∧ t = { s with DT := s.reg x } ∧
      t.timerStage.DT.toNat = (s.reg x).toNat - 1) ∧
    (∃ t, exec (.ldSTVx x) s = .next t ∧ t = { s with ST := s.reg x } ∧
      t.timerStage.ST.toNat = (s.reg x).toNat - 1 ∧ t.timerStage.tone = (s.reg x == 1))

/-! ### Frames over all instructions -/

/-- 10_state R11, R12: an instruction leaves every register outside its destination unchanged, VF included, but for
the six flag writers. -/
def Obligations.OnlyDestinationRegistersChange : Prop :=
  ∀ (i : Instr) (s t : State), exec i s = .next t → SameRegsBut (MayWriteReg i) s t

/-- 20_memory R40, R46, R47: every byte outside those FX33 and FX55 store to reads as before, and every other
instruction leaves all of memory alone. -/
def Obligations.OnlyStoredBytesChange : Prop :=
  ∀ (i : Instr) (s t : State), exec i s = .next t → SameBytesBut (StoresTo i s) s t

/-- 10_state R25, 60 R168: only 00E0 and DXYN write the display, DXYN only within the sprite's box. -/
def Obligations.OnlyClearAndDrawWriteTheDisplay : Prop :=
  ∀ (i : Instr) (s t : State), exec i s = .next t → SameCellsBut (MayWriteCell i s) s t

/-- 10_state R14: in stage 3 only the jumps, call, return, skips and the key-wait change `pc`. -/
def Obligations.OnlyControlTransfersChangePc : Prop :=
  ∀ (i : Instr) (s t : State), exec i s = .next t → ¬ MayWritePc i → t.pc = s.pc

/-- 10_state R16 to R20: `I` is written by ANNN, FX1E and FX29 only, `sp` by call and return, the stack by call, `DT`
by FX15 and `ST` by FX18. -/
def Obligations.SpecialRegistersHaveTheirOwnWriters : Prop :=
  ∀ (i : Instr) (s t : State), exec i s = .next t →
    ((∀ nnn, i ≠ .ldI nnn) → (∀ x, i ≠ .addI x) → (∀ x, i ≠ .ldF x) → t.I = s.I) ∧
    ((∀ nnn, i ≠ .call nnn) → i ≠ .ret → t.sp = s.sp) ∧
    ((∀ nnn, i ≠ .call nnn) → t.stack = s.stack) ∧
    ((∀ x, i ≠ .ldDTVx x) → t.DT = s.DT) ∧ ((∀ x, i ≠ .ldSTVx x) → t.ST = s.ST)

/-- 10_state R21, R26, R27, R28, R30: no instruction writes the sampled keys, the word, `load_error` or the parameters,
and the latch and the outputs change only by a fault (the report of CXNN under RND_MODE = unknown apart, log entry 20). The host's coming keys and the flag `started` are the
model's own (log entries 1, 7). -/
def Obligations.NoInstructionWritesTheLatchOrTheOutside : Prop :=
  ∀ (i : Instr) (s t : State), exec i s = .next t → SameOutside s t ∧
    (s.fault = false → t.fault = false → SameLatch s t ∧ t.tone = s.tone ∧
      ((∀ x nn, i ≠ .rnd x nn) ∨ s.cfg.rndMode = .maskedDraw → t.unknown = s.unknown))

/-- 10_state R20, R26, 45 R140: only EX9E, EXA1 and FX0A read the keypad: every other instruction does the same
whatever keys are held; and no instruction reads the sound timer, which FX18 alone writes. -/
def Obligations.KeypadAndSoundTimerAreReadOnlyWhereSaid : Prop :=
  ∀ (i : Instr) (s t : State), exec i s = .next t →
    (∀ k, (∀ x, i ≠ .skp x) → (∀ x, i ≠ .sknp x) → (∀ x, i ≠ .ldVxK x) →
      exec i { s with key := k } = .next { t with key := k }) ∧
    (∀ v, (∀ x, i ≠ .ldSTVx x) → exec i { s with ST := v } = .next { t with ST := v }) ∧
    (∀ v x, i = .ldSTVx x → exec i { s with ST := v } = .next t)

/-- 40 R83: stage 3 of every instruction answers a next state from every state: the model refuses none and stops on
none. Where the spec raises a fault (60 R153 to R156), that next state is the latched fault (log entry 4), not the
instruction's own effect; the statements of each instruction say where it has that effect. -/
def Obligations.EveryInstructionAnswersANextState : Prop :=
  ∀ (i : Instr) (s : State), ∃ t, exec i s = .next t

/-- 40 R80, R84, R86, R88: a core with no refused load always steps, and a step never changes the parameters. -/
def Obligations.CoreAlwaysStepsAndKeepsItsParameters : Prop :=
  ∀ s : State, s.loadError = false → ∃ t, step s = .next t ∧ t.cfg = s.cfg ∧ t.loadError = false ∧
    (s.fault = true → t.fault = true)
end

