-- ==== Sys2Proof/Laws/Decode.lean ====
section
/-! SUPPORT. The fields of an encoded word, a word put together from its fields, and the opcode map's masks. -/

namespace Sys2Proof

/-! ### Words and fields as numbers -/

theorem append_toNat {m n : Nat} (a : BitVec m) (b : BitVec n) :
    (a ++ b).toNat = a.toNat * 2 ^ n + b.toNat := by
  rw [BitVec.toNat_append, ← Nat.shiftLeft_add_eq_or_of_lt b.isLt, Nat.shiftLeft_eq]

theorem regBits_toNat (r : Reg) : (regBits r).toNat = r.val := rfl

theorem wordA_toNat (op : Nibble) (nnn : Addr12) : (wordA op nnn).toNat = op.toNat * 4096 + nnn.toNat := by
  unfold wordA; rw [append_toNat]; omega

theorem wordXI_toNat (op : Nibble) (x : Reg) (nn : Byte) :
    (wordXI op x nn).toNat = op.toNat * 4096 + x.val * 256 + nn.toNat := by
  unfold wordXI; rw [append_toNat, append_toNat, regBits_toNat]; omega

theorem wordXYN_toNat (op : Nibble) (x y : Reg) (n : Nibble) :
    (wordXYN op x y n).toNat = op.toNat * 4096 + x.val * 256 + y.val * 16 + n.toNat := by
  unfold wordXYN; rw [append_toNat, append_toNat, append_toNat, regBits_toNat, regBits_toNat]; omega

theorem opField_toNat (w : Word) : (opField w).toNat = w.toNat / 4096 := by
  have := w.isLt
  simp only [opField, BitVec.extractLsb'_toNat, Nat.shiftRight_eq_div_pow]; omega

theorem xField_val (w : Word) : (xField w).val = w.toNat / 256 % 16 := by
  simp only [xField, BitVec.val_toFin, BitVec.extractLsb'_toNat, Nat.shiftRight_eq_div_pow]

theorem yField_val (w : Word) : (yField w).val = w.toNat / 16 % 16 := by
  simp only [yField, BitVec.val_toFin, BitVec.extractLsb'_toNat, Nat.shiftRight_eq_div_pow]

theorem nField_toNat (w : Word) : (nField w).toNat = w.toNat % 16 := by
  simp only [nField, BitVec.extractLsb'_toNat, Nat.shiftRight_eq_div_pow]; omega

theorem nnField_toNat (w : Word) : (nnField w).toNat = w.toNat % 256 := by
  simp only [nnField, BitVec.extractLsb'_toNat, Nat.shiftRight_eq_div_pow]; omega

theorem nnnField_toNat (w : Word) : (nnnField w).toNat = w.toNat % 4096 := by
  simp only [nnnField, BitVec.extractLsb'_toNat, Nat.shiftRight_eq_div_pow]; omega

/-! ### The fields of an encoded word -/

@[simp] theorem opField_wordA (op : Nibble) (nnn : Addr12) : opField (wordA op nnn) = op := by
  apply BitVec.eq_of_toNat_eq; rw [opField_toNat, wordA_toNat]; omega

@[simp] theorem nnnField_wordA (op : Nibble) (nnn : Addr12) : nnnField (wordA op nnn) = nnn := by
  apply BitVec.eq_of_toNat_eq; rw [nnnField_toNat, wordA_toNat]; omega

@[simp] theorem opField_wordXI (op : Nibble) (x : Reg) (nn : Byte) : opField (wordXI op x nn) = op := by
  apply BitVec.eq_of_toNat_eq; rw [opField_toNat, wordXI_toNat]; omega

@[simp] theorem xField_wordXI (op : Nibble) (x : Reg) (nn : Byte) : xField (wordXI op x nn) = x := by
  apply Fin.ext; rw [xField_val, wordXI_toNat]; omega

@[simp] theorem nnField_wordXI (op : Nibble) (x : Reg) (nn : Byte) : nnField (wordXI op x nn) = nn := by
  apply BitVec.eq_of_toNat_eq; rw [nnField_toNat, wordXI_toNat]; omega

@[simp] theorem opField_wordXYN (op : Nibble) (x y : Reg) (n : Nibble) : opField (wordXYN op x y n) = op := by
  apply BitVec.eq_of_toNat_eq; rw [opField_toNat, wordXYN_toNat]; omega

@[simp] theorem xField_wordXYN (op : Nibble) (x y : Reg) (n : Nibble) : xField (wordXYN op x y n) = x := by
  apply Fin.ext; rw [xField_val, wordXYN_toNat]; omega

@[simp] theorem yField_wordXYN (op : Nibble) (x y : Reg) (n : Nibble) : yField (wordXYN op x y n) = y := by
  apply Fin.ext; rw [yField_val, wordXYN_toNat]; omega

@[simp] theorem nField_wordXYN (op : Nibble) (x y : Reg) (n : Nibble) : nField (wordXYN op x y n) = n := by
  apply BitVec.eq_of_toNat_eq; rw [nField_toNat, wordXYN_toNat]; omega

/-! ### A word from its fields -/

theorem wordA_fields (w : Word) : wordA (opField w) (nnnField w) = w := by
  apply BitVec.eq_of_toNat_eq; rw [wordA_toNat, opField_toNat, nnnField_toNat]; omega

theorem wordXI_fields (w : Word) : wordXI (opField w) (xField w) (nnField w) = w := by
  apply BitVec.eq_of_toNat_eq; rw [wordXI_toNat, opField_toNat, xField_val, nnField_toNat]; omega

theorem wordXYN_fields (w : Word) : wordXYN (opField w) (xField w) (yField w) (nField w) = w := by
  apply BitVec.eq_of_toNat_eq; rw [wordXYN_toNat, opField_toNat, xField_val, yField_val, nField_toNat]; omega

/-! ### The masks of the opcode map -/

theorem wordA_bit (op : Nibble) (nnn : Addr12) (i : Nat) :
    (wordA op nnn).getLsbD i = if i < 12 then nnn.getLsbD i else op.getLsbD (i - 12) :=
  BitVec.getLsbD_append

theorem wordXI_bit (op : Nibble) (x : Reg) (nn : Byte) (i : Nat) :
    (wordXI op x nn).getLsbD i =
      if i < 8 then nn.getLsbD i else if i - 8 < 4 then (regBits x).getLsbD (i - 8) else op.getLsbD (i - 8 - 4) := by
  rw [← BitVec.getLsbD_append]
  exact BitVec.getLsbD_append

theorem wordXYN_bit (op : Nibble) (x y : Reg) (n : Nibble) (i : Nat) :
    (wordXYN op x y n).getLsbD i =
      if i < 4 then n.getLsbD i else if i - 4 < 4 then (regBits y).getLsbD (i - 4) else
        if i - 4 - 4 < 4 then (regBits x).getLsbD (i - 4 - 4) else op.getLsbD (i - 4 - 4 - 4) := by
  rw [← BitVec.getLsbD_append, ← BitVec.getLsbD_append]
  exact BitVec.getLsbD_append

theorem and_F000 (w : Word) : w &&& 0xF000#16 = wordA (opField w) 0 := by
  apply BitVec.eq_of_getLsbD_eq
  intro i hi
  rw [wordA_bit, BitVec.getLsbD_and]
  unfold opField
  interval_cases i <;> simp

theorem and_F00F (w : Word) : w &&& 0xF00F#16 = wordXYN (opField w) 0 0 (nField w) := by
  apply BitVec.eq_of_getLsbD_eq
  intro i hi
  rw [wordXYN_bit, BitVec.getLsbD_and]
  unfold opField nField regBits
  interval_cases i <;> simp

theorem and_F0FF (w : Word) : w &&& 0xF0FF#16 = wordXI (opField w) 0 (nnField w) := by
  apply BitVec.eq_of_getLsbD_eq
  intro i hi
  rw [wordXI_bit, BitVec.getLsbD_and]
  unfold opField nnField regBits
  interval_cases i <;> simp

end Sys2Proof
end

