-- ==== Sys2Proof/Laws/State.lean ====
section
/-! SUPPORT. One lemma per field per update, true by definition, so that no proof unfolds a record update. -/

namespace Sys2Proof.Machine

/-! ### Sampling the keypad writes `key` and `keysIn` only -/

@[simp] theorem State.sampleKeys_regs (s : State) : s.sampleKeys.regs = s.regs := by
  unfold State.sampleKeys; split <;> rfl
@[simp] theorem State.sampleKeys_pc (s : State) : s.sampleKeys.pc = s.pc := by
  unfold State.sampleKeys; split <;> rfl
@[simp] theorem State.sampleKeys_I (s : State) : s.sampleKeys.I = s.I := by
  unfold State.sampleKeys; split <;> rfl
@[simp] theorem State.sampleKeys_sp (s : State) : s.sampleKeys.sp = s.sp := by
  unfold State.sampleKeys; split <;> rfl
@[simp] theorem State.sampleKeys_stack (s : State) : s.sampleKeys.stack = s.stack := by
  unfold State.sampleKeys; split <;> rfl
@[simp] theorem State.sampleKeys_DT (s : State) : s.sampleKeys.DT = s.DT := by
  unfold State.sampleKeys; split <;> rfl
@[simp] theorem State.sampleKeys_ST (s : State) : s.sampleKeys.ST = s.ST := by
  unfold State.sampleKeys; split <;> rfl
@[simp] theorem State.sampleKeys_fault (s : State) : s.sampleKeys.fault = s.fault := by
  unfold State.sampleKeys; split <;> rfl
@[simp] theorem State.sampleKeys_faultCode (s : State) : s.sampleKeys.faultCode = s.faultCode := by
  unfold State.sampleKeys; split <;> rfl
@[simp] theorem State.sampleKeys_faultInfo (s : State) : s.sampleKeys.faultInfo = s.faultInfo := by
  unfold State.sampleKeys; split <;> rfl
@[simp] theorem State.sampleKeys_mem (s : State) : s.sampleKeys.mem = s.mem := by
  unfold State.sampleKeys; split <;> rfl
@[simp] theorem State.sampleKeys_disp (s : State) : s.sampleKeys.disp = s.disp := by
  unfold State.sampleKeys; split <;> rfl
@[simp] theorem State.sampleKeys_instr (s : State) : s.sampleKeys.instr = s.instr := by
  unfold State.sampleKeys; split <;> rfl
@[simp] theorem State.sampleKeys_tone (s : State) : s.sampleKeys.tone = s.tone := by
  unfold State.sampleKeys; split <;> rfl
@[simp] theorem State.sampleKeys_unknown (s : State) : s.sampleKeys.unknown = s.unknown := by
  unfold State.sampleKeys; split <;> rfl
@[simp] theorem State.sampleKeys_loadError (s : State) : s.sampleKeys.loadError = s.loadError := by
  unfold State.sampleKeys; split <;> rfl
@[simp] theorem State.sampleKeys_started (s : State) : s.sampleKeys.started = s.started := by
  unfold State.sampleKeys; split <;> rfl
@[simp] theorem State.sampleKeys_draws (s : State) : s.sampleKeys.draws = s.draws := by
  unfold State.sampleKeys; split <;> rfl
@[simp] theorem State.sampleKeys_cfg (s : State) : s.sampleKeys.cfg = s.cfg := by
  unfold State.sampleKeys; split <;> rfl

/-! ### `setReg` -/

@[simp] theorem State.setReg_regs (s : State) (r : Reg) (v : Byte) : (s.setReg r v).regs = s.regs.set r v := rfl
@[simp] theorem State.setReg_pc (s : State) (r : Reg) (v : Byte) : (s.setReg r v).pc = s.pc := rfl
@[simp] theorem State.setReg_I (s : State) (r : Reg) (v : Byte) : (s.setReg r v).I = s.I := rfl
@[simp] theorem State.setReg_sp (s : State) (r : Reg) (v : Byte) : (s.setReg r v).sp = s.sp := rfl
@[simp] theorem State.setReg_stack (s : State) (r : Reg) (v : Byte) : (s.setReg r v).stack = s.stack := rfl
@[simp] theorem State.setReg_DT (s : State) (r : Reg) (v : Byte) : (s.setReg r v).DT = s.DT := rfl
@[simp] theorem State.setReg_ST (s : State) (r : Reg) (v : Byte) : (s.setReg r v).ST = s.ST := rfl
@[simp] theorem State.setReg_fault (s : State) (r : Reg) (v : Byte) : (s.setReg r v).fault = s.fault := rfl
@[simp] theorem State.setReg_faultCode (s : State) (r : Reg) (v : Byte) : (s.setReg r v).faultCode = s.faultCode := rfl
@[simp] theorem State.setReg_faultInfo (s : State) (r : Reg) (v : Byte) : (s.setReg r v).faultInfo = s.faultInfo := rfl
@[simp] theorem State.setReg_mem (s : State) (r : Reg) (v : Byte) : (s.setReg r v).mem = s.mem := rfl
@[simp] theorem State.setReg_disp (s : State) (r : Reg) (v : Byte) : (s.setReg r v).disp = s.disp := rfl
@[simp] theorem State.setReg_key (s : State) (r : Reg) (v : Byte) : (s.setReg r v).key = s.key := rfl
@[simp] theorem State.setReg_instr (s : State) (r : Reg) (v : Byte) : (s.setReg r v).instr = s.instr := rfl
@[simp] theorem State.setReg_tone (s : State) (r : Reg) (v : Byte) : (s.setReg r v).tone = s.tone := rfl
@[simp] theorem State.setReg_unknown (s : State) (r : Reg) (v : Byte) : (s.setReg r v).unknown = s.unknown := rfl
@[simp] theorem State.setReg_loadError (s : State) (r : Reg) (v : Byte) : (s.setReg r v).loadError = s.loadError := rfl
@[simp] theorem State.setReg_keysIn (s : State) (r : Reg) (v : Byte) : (s.setReg r v).keysIn = s.keysIn := rfl
@[simp] theorem State.setReg_started (s : State) (r : Reg) (v : Byte) : (s.setReg r v).started = s.started := rfl
@[simp] theorem State.setReg_draws (s : State) (r : Reg) (v : Byte) : (s.setReg r v).draws = s.draws := rfl
@[simp] theorem State.setReg_cfg (s : State) (r : Reg) (v : Byte) : (s.setReg r v).cfg = s.cfg := rfl
@[simp] theorem State.readByte_setReg (s : State) (r : Reg) (v : Byte) (b : Nat) : (s.setReg r v).readByte b = s.readByte b := rfl

/-! ### `setRegs` -/

@[simp] theorem State.setRegs_regs (s : State) (v : Vector Byte 16) : (s.setRegs v).regs = v := rfl
@[simp] theorem State.setRegs_pc (s : State) (v : Vector Byte 16) : (s.setRegs v).pc = s.pc := rfl
@[simp] theorem State.setRegs_I (s : State) (v : Vector Byte 16) : (s.setRegs v).I = s.I := rfl
@[simp] theorem State.setRegs_sp (s : State) (v : Vector Byte 16) : (s.setRegs v).sp = s.sp := rfl
@[simp] theorem State.setRegs_stack (s : State) (v : Vector Byte 16) : (s.setRegs v).stack = s.stack := rfl
@[simp] theorem State.setRegs_DT (s : State) (v : Vector Byte 16) : (s.setRegs v).DT = s.DT := rfl
@[simp] theorem State.setRegs_ST (s : State) (v : Vector Byte 16) : (s.setRegs v).ST = s.ST := rfl
@[simp] theorem State.setRegs_fault (s : State) (v : Vector Byte 16) : (s.setRegs v).fault = s.fault := rfl
@[simp] theorem State.setRegs_faultCode (s : State) (v : Vector Byte 16) : (s.setRegs v).faultCode = s.faultCode := rfl
@[simp] theorem State.setRegs_faultInfo (s : State) (v : Vector Byte 16) : (s.setRegs v).faultInfo = s.faultInfo := rfl
@[simp] theorem State.setRegs_mem (s : State) (v : Vector Byte 16) : (s.setRegs v).mem = s.mem := rfl
@[simp] theorem State.setRegs_disp (s : State) (v : Vector Byte 16) : (s.setRegs v).disp = s.disp := rfl
@[simp] theorem State.setRegs_key (s : State) (v : Vector Byte 16) : (s.setRegs v).key = s.key := rfl
@[simp] theorem State.setRegs_instr (s : State) (v : Vector Byte 16) : (s.setRegs v).instr = s.instr := rfl
@[simp] theorem State.setRegs_tone (s : State) (v : Vector Byte 16) : (s.setRegs v).tone = s.tone := rfl
@[simp] theorem State.setRegs_unknown (s : State) (v : Vector Byte 16) : (s.setRegs v).unknown = s.unknown := rfl
@[simp] theorem State.setRegs_loadError (s : State) (v : Vector Byte 16) : (s.setRegs v).loadError = s.loadError := rfl
@[simp] theorem State.setRegs_keysIn (s : State) (v : Vector Byte 16) : (s.setRegs v).keysIn = s.keysIn := rfl
@[simp] theorem State.setRegs_started (s : State) (v : Vector Byte 16) : (s.setRegs v).started = s.started := rfl
@[simp] theorem State.setRegs_draws (s : State) (v : Vector Byte 16) : (s.setRegs v).draws = s.draws := rfl
@[simp] theorem State.setRegs_cfg (s : State) (v : Vector Byte 16) : (s.setRegs v).cfg = s.cfg := rfl
@[simp] theorem State.readByte_setRegs (s : State) (v : Vector Byte 16) (b : Nat) : (s.setRegs v).readByte b = s.readByte b := rfl

/-! ### `setPc` -/

@[simp] theorem State.setPc_regs (s : State) (w : Word) : (s.setPc w).regs = s.regs := rfl
@[simp] theorem State.setPc_pc (s : State) (w : Word) : (s.setPc w).pc = w := rfl
@[simp] theorem State.setPc_I (s : State) (w : Word) : (s.setPc w).I = s.I := rfl
@[simp] theorem State.setPc_sp (s : State) (w : Word) : (s.setPc w).sp = s.sp := rfl
@[simp] theorem State.setPc_stack (s : State) (w : Word) : (s.setPc w).stack = s.stack := rfl
@[simp] theorem State.setPc_DT (s : State) (w : Word) : (s.setPc w).DT = s.DT := rfl
@[simp] theorem State.setPc_ST (s : State) (w : Word) : (s.setPc w).ST = s.ST := rfl
@[simp] theorem State.setPc_fault (s : State) (w : Word) : (s.setPc w).fault = s.fault := rfl
@[simp] theorem State.setPc_faultCode (s : State) (w : Word) : (s.setPc w).faultCode = s.faultCode := rfl
@[simp] theorem State.setPc_faultInfo (s : State) (w : Word) : (s.setPc w).faultInfo = s.faultInfo := rfl
@[simp] theorem State.setPc_mem (s : State) (w : Word) : (s.setPc w).mem = s.mem := rfl
@[simp] theorem State.setPc_disp (s : State) (w : Word) : (s.setPc w).disp = s.disp := rfl
@[simp] theorem State.setPc_key (s : State) (w : Word) : (s.setPc w).key = s.key := rfl
@[simp] theorem State.setPc_instr (s : State) (w : Word) : (s.setPc w).instr = s.instr := rfl
@[simp] theorem State.setPc_tone (s : State) (w : Word) : (s.setPc w).tone = s.tone := rfl
@[simp] theorem State.setPc_unknown (s : State) (w : Word) : (s.setPc w).unknown = s.unknown := rfl
@[simp] theorem State.setPc_loadError (s : State) (w : Word) : (s.setPc w).loadError = s.loadError := rfl
@[simp] theorem State.setPc_keysIn (s : State) (w : Word) : (s.setPc w).keysIn = s.keysIn := rfl
@[simp] theorem State.setPc_started (s : State) (w : Word) : (s.setPc w).started = s.started := rfl
@[simp] theorem State.setPc_draws (s : State) (w : Word) : (s.setPc w).draws = s.draws := rfl
@[simp] theorem State.setPc_cfg (s : State) (w : Word) : (s.setPc w).cfg = s.cfg := rfl
@[simp] theorem State.reg_setPc (s : State) (w : Word) (q : Reg) : (s.setPc w).reg q = s.reg q := rfl
@[simp] theorem State.readByte_setPc (s : State) (w : Word) (b : Nat) : (s.setPc w).readByte b = s.readByte b := rfl

/-! ### `setI` -/

@[simp] theorem State.setI_regs (s : State) (w : Word) : (s.setI w).regs = s.regs := rfl
@[simp] theorem State.setI_pc (s : State) (w : Word) : (s.setI w).pc = s.pc := rfl
@[simp] theorem State.setI_I (s : State) (w : Word) : (s.setI w).I = w := rfl
@[simp] theorem State.setI_sp (s : State) (w : Word) : (s.setI w).sp = s.sp := rfl
@[simp] theorem State.setI_stack (s : State) (w : Word) : (s.setI w).stack = s.stack := rfl
@[simp] theorem State.setI_DT (s : State) (w : Word) : (s.setI w).DT = s.DT := rfl
@[simp] theorem State.setI_ST (s : State) (w : Word) : (s.setI w).ST = s.ST := rfl
@[simp] theorem State.setI_fault (s : State) (w : Word) : (s.setI w).fault = s.fault := rfl
@[simp] theorem State.setI_faultCode (s : State) (w : Word) : (s.setI w).faultCode = s.faultCode := rfl
@[simp] theorem State.setI_faultInfo (s : State) (w : Word) : (s.setI w).faultInfo = s.faultInfo := rfl
@[simp] theorem State.setI_mem (s : State) (w : Word) : (s.setI w).mem = s.mem := rfl
@[simp] theorem State.setI_disp (s : State) (w : Word) : (s.setI w).disp = s.disp := rfl
@[simp] theorem State.setI_key (s : State) (w : Word) : (s.setI w).key = s.key := rfl
@[simp] theorem State.setI_instr (s : State) (w : Word) : (s.setI w).instr = s.instr := rfl
@[simp] theorem State.setI_tone (s : State) (w : Word) : (s.setI w).tone = s.tone := rfl
@[simp] theorem State.setI_unknown (s : State) (w : Word) : (s.setI w).unknown = s.unknown := rfl
@[simp] theorem State.setI_loadError (s : State) (w : Word) : (s.setI w).loadError = s.loadError := rfl
@[simp] theorem State.setI_keysIn (s : State) (w : Word) : (s.setI w).keysIn = s.keysIn := rfl
@[simp] theorem State.setI_started (s : State) (w : Word) : (s.setI w).started = s.started := rfl
@[simp] theorem State.setI_draws (s : State) (w : Word) : (s.setI w).draws = s.draws := rfl
@[simp] theorem State.setI_cfg (s : State) (w : Word) : (s.setI w).cfg = s.cfg := rfl
@[simp] theorem State.reg_setI (s : State) (w : Word) (q : Reg) : (s.setI w).reg q = s.reg q := rfl
@[simp] theorem State.readByte_setI (s : State) (w : Word) (b : Nat) : (s.setI w).readByte b = s.readByte b := rfl

/-! ### `setDT` -/

@[simp] theorem State.setDT_regs (s : State) (v : Byte) : (s.setDT v).regs = s.regs := rfl
@[simp] theorem State.setDT_pc (s : State) (v : Byte) : (s.setDT v).pc = s.pc := rfl
@[simp] theorem State.setDT_I (s : State) (v : Byte) : (s.setDT v).I = s.I := rfl
@[simp] theorem State.setDT_sp (s : State) (v : Byte) : (s.setDT v).sp = s.sp := rfl
@[simp] theorem State.setDT_stack (s : State) (v : Byte) : (s.setDT v).stack = s.stack := rfl
@[simp] theorem State.setDT_DT (s : State) (v : Byte) : (s.setDT v).DT = v := rfl
@[simp] theorem State.setDT_ST (s : State) (v : Byte) : (s.setDT v).ST = s.ST := rfl
@[simp] theorem State.setDT_fault (s : State) (v : Byte) : (s.setDT v).fault = s.fault := rfl
@[simp] theorem State.setDT_faultCode (s : State) (v : Byte) : (s.setDT v).faultCode = s.faultCode := rfl
@[simp] theorem State.setDT_faultInfo (s : State) (v : Byte) : (s.setDT v).faultInfo = s.faultInfo := rfl
@[simp] theorem State.setDT_mem (s : State) (v : Byte) : (s.setDT v).mem = s.mem := rfl
@[simp] theorem State.setDT_disp (s : State) (v : Byte) : (s.setDT v).disp = s.disp := rfl
@[simp] theorem State.setDT_key (s : State) (v : Byte) : (s.setDT v).key = s.key := rfl
@[simp] theorem State.setDT_instr (s : State) (v : Byte) : (s.setDT v).instr = s.instr := rfl
@[simp] theorem State.setDT_tone (s : State) (v : Byte) : (s.setDT v).tone = s.tone := rfl
@[simp] theorem State.setDT_unknown (s : State) (v : Byte) : (s.setDT v).unknown = s.unknown := rfl
@[simp] theorem State.setDT_loadError (s : State) (v : Byte) : (s.setDT v).loadError = s.loadError := rfl
@[simp] theorem State.setDT_keysIn (s : State) (v : Byte) : (s.setDT v).keysIn = s.keysIn := rfl
@[simp] theorem State.setDT_started (s : State) (v : Byte) : (s.setDT v).started = s.started := rfl
@[simp] theorem State.setDT_draws (s : State) (v : Byte) : (s.setDT v).draws = s.draws := rfl
@[simp] theorem State.setDT_cfg (s : State) (v : Byte) : (s.setDT v).cfg = s.cfg := rfl
@[simp] theorem State.reg_setDT (s : State) (v : Byte) (q : Reg) : (s.setDT v).reg q = s.reg q := rfl
@[simp] theorem State.readByte_setDT (s : State) (v : Byte) (b : Nat) : (s.setDT v).readByte b = s.readByte b := rfl

/-! ### `setST` -/

@[simp] theorem State.setST_regs (s : State) (v : Byte) : (s.setST v).regs = s.regs := rfl
@[simp] theorem State.setST_pc (s : State) (v : Byte) : (s.setST v).pc = s.pc := rfl
@[simp] theorem State.setST_I (s : State) (v : Byte) : (s.setST v).I = s.I := rfl
@[simp] theorem State.setST_sp (s : State) (v : Byte) : (s.setST v).sp = s.sp := rfl
@[simp] theorem State.setST_stack (s : State) (v : Byte) : (s.setST v).stack = s.stack := rfl
@[simp] theorem State.setST_DT (s : State) (v : Byte) : (s.setST v).DT = s.DT := rfl
@[simp] theorem State.setST_ST (s : State) (v : Byte) : (s.setST v).ST = v := rfl
@[simp] theorem State.setST_fault (s : State) (v : Byte) : (s.setST v).fault = s.fault := rfl
@[simp] theorem State.setST_faultCode (s : State) (v : Byte) : (s.setST v).faultCode = s.faultCode := rfl
@[simp] theorem State.setST_faultInfo (s : State) (v : Byte) : (s.setST v).faultInfo = s.faultInfo := rfl
@[simp] theorem State.setST_mem (s : State) (v : Byte) : (s.setST v).mem = s.mem := rfl
@[simp] theorem State.setST_disp (s : State) (v : Byte) : (s.setST v).disp = s.disp := rfl
@[simp] theorem State.setST_key (s : State) (v : Byte) : (s.setST v).key = s.key := rfl
@[simp] theorem State.setST_instr (s : State) (v : Byte) : (s.setST v).instr = s.instr := rfl
@[simp] theorem State.setST_tone (s : State) (v : Byte) : (s.setST v).tone = s.tone := rfl
@[simp] theorem State.setST_unknown (s : State) (v : Byte) : (s.setST v).unknown = s.unknown := rfl
@[simp] theorem State.setST_loadError (s : State) (v : Byte) : (s.setST v).loadError = s.loadError := rfl
@[simp] theorem State.setST_keysIn (s : State) (v : Byte) : (s.setST v).keysIn = s.keysIn := rfl
@[simp] theorem State.setST_started (s : State) (v : Byte) : (s.setST v).started = s.started := rfl
@[simp] theorem State.setST_draws (s : State) (v : Byte) : (s.setST v).draws = s.draws := rfl
@[simp] theorem State.setST_cfg (s : State) (v : Byte) : (s.setST v).cfg = s.cfg := rfl
@[simp] theorem State.reg_setST (s : State) (v : Byte) (q : Reg) : (s.setST v).reg q = s.reg q := rfl
@[simp] theorem State.readByte_setST (s : State) (v : Byte) (b : Nat) : (s.setST v).readByte b = s.readByte b := rfl

/-! ### `setDisp` -/

@[simp] theorem State.setDisp_regs (s : State) (d : Display) : (s.setDisp d).regs = s.regs := rfl
@[simp] theorem State.setDisp_pc (s : State) (d : Display) : (s.setDisp d).pc = s.pc := rfl
@[simp] theorem State.setDisp_I (s : State) (d : Display) : (s.setDisp d).I = s.I := rfl
@[simp] theorem State.setDisp_sp (s : State) (d : Display) : (s.setDisp d).sp = s.sp := rfl
@[simp] theorem State.setDisp_stack (s : State) (d : Display) : (s.setDisp d).stack = s.stack := rfl
@[simp] theorem State.setDisp_DT (s : State) (d : Display) : (s.setDisp d).DT = s.DT := rfl
@[simp] theorem State.setDisp_ST (s : State) (d : Display) : (s.setDisp d).ST = s.ST := rfl
@[simp] theorem State.setDisp_fault (s : State) (d : Display) : (s.setDisp d).fault = s.fault := rfl
@[simp] theorem State.setDisp_faultCode (s : State) (d : Display) : (s.setDisp d).faultCode = s.faultCode := rfl
@[simp] theorem State.setDisp_faultInfo (s : State) (d : Display) : (s.setDisp d).faultInfo = s.faultInfo := rfl
@[simp] theorem State.setDisp_mem (s : State) (d : Display) : (s.setDisp d).mem = s.mem := rfl
@[simp] theorem State.setDisp_disp (s : State) (d : Display) : (s.setDisp d).disp = d := rfl
@[simp] theorem State.setDisp_key (s : State) (d : Display) : (s.setDisp d).key = s.key := rfl
@[simp] theorem State.setDisp_instr (s : State) (d : Display) : (s.setDisp d).instr = s.instr := rfl
@[simp] theorem State.setDisp_tone (s : State) (d : Display) : (s.setDisp d).tone = s.tone := rfl
@[simp] theorem State.setDisp_unknown (s : State) (d : Display) : (s.setDisp d).unknown = s.unknown := rfl
@[simp] theorem State.setDisp_loadError (s : State) (d : Display) : (s.setDisp d).loadError = s.loadError := rfl
@[simp] theorem State.setDisp_keysIn (s : State) (d : Display) : (s.setDisp d).keysIn = s.keysIn := rfl
@[simp] theorem State.setDisp_started (s : State) (d : Display) : (s.setDisp d).started = s.started := rfl
@[simp] theorem State.setDisp_draws (s : State) (d : Display) : (s.setDisp d).draws = s.draws := rfl
@[simp] theorem State.setDisp_cfg (s : State) (d : Display) : (s.setDisp d).cfg = s.cfg := rfl
@[simp] theorem State.reg_setDisp (s : State) (d : Display) (q : Reg) : (s.setDisp d).reg q = s.reg q := rfl
@[simp] theorem State.readByte_setDisp (s : State) (d : Display) (b : Nat) : (s.setDisp d).readByte b = s.readByte b := rfl

/-! ### `countDraw` -/

@[simp] theorem State.countDraw_regs (s : State) : (s.countDraw).regs = s.regs := rfl
@[simp] theorem State.countDraw_pc (s : State) : (s.countDraw).pc = s.pc := rfl
@[simp] theorem State.countDraw_I (s : State) : (s.countDraw).I = s.I := rfl
@[simp] theorem State.countDraw_sp (s : State) : (s.countDraw).sp = s.sp := rfl
@[simp] theorem State.countDraw_stack (s : State) : (s.countDraw).stack = s.stack := rfl
@[simp] theorem State.countDraw_DT (s : State) : (s.countDraw).DT = s.DT := rfl
@[simp] theorem State.countDraw_ST (s : State) : (s.countDraw).ST = s.ST := rfl
@[simp] theorem State.countDraw_fault (s : State) : (s.countDraw).fault = s.fault := rfl
@[simp] theorem State.countDraw_faultCode (s : State) : (s.countDraw).faultCode = s.faultCode := rfl
@[simp] theorem State.countDraw_faultInfo (s : State) : (s.countDraw).faultInfo = s.faultInfo := rfl
@[simp] theorem State.countDraw_mem (s : State) : (s.countDraw).mem = s.mem := rfl
@[simp] theorem State.countDraw_disp (s : State) : (s.countDraw).disp = s.disp := rfl
@[simp] theorem State.countDraw_key (s : State) : (s.countDraw).key = s.key := rfl
@[simp] theorem State.countDraw_instr (s : State) : (s.countDraw).instr = s.instr := rfl
@[simp] theorem State.countDraw_tone (s : State) : (s.countDraw).tone = s.tone := rfl
@[simp] theorem State.countDraw_unknown (s : State) : (s.countDraw).unknown = s.unknown := rfl
@[simp] theorem State.countDraw_loadError (s : State) : (s.countDraw).loadError = s.loadError := rfl
@[simp] theorem State.countDraw_keysIn (s : State) : (s.countDraw).keysIn = s.keysIn := rfl
@[simp] theorem State.countDraw_started (s : State) : (s.countDraw).started = s.started := rfl
@[simp] theorem State.countDraw_draws (s : State) : (s.countDraw).draws = s.draws + 1 := rfl
@[simp] theorem State.countDraw_cfg (s : State) : (s.countDraw).cfg = s.cfg := rfl
@[simp] theorem State.reg_countDraw (s : State) (q : Reg) : (s.countDraw).reg q = s.reg q := rfl
@[simp] theorem State.readByte_countDraw (s : State) (b : Nat) : (s.countDraw).readByte b = s.readByte b := rfl

/-! ### `writeByte` -/

@[simp] theorem State.writeByte_regs (s : State) (a : Nat) (v : Byte) : (s.writeByte a v).regs = s.regs := rfl
@[simp] theorem State.writeByte_pc (s : State) (a : Nat) (v : Byte) : (s.writeByte a v).pc = s.pc := rfl
@[simp] theorem State.writeByte_I (s : State) (a : Nat) (v : Byte) : (s.writeByte a v).I = s.I := rfl
@[simp] theorem State.writeByte_sp (s : State) (a : Nat) (v : Byte) : (s.writeByte a v).sp = s.sp := rfl
@[simp] theorem State.writeByte_stack (s : State) (a : Nat) (v : Byte) : (s.writeByte a v).stack = s.stack := rfl
@[simp] theorem State.writeByte_DT (s : State) (a : Nat) (v : Byte) : (s.writeByte a v).DT = s.DT := rfl
@[simp] theorem State.writeByte_ST (s : State) (a : Nat) (v : Byte) : (s.writeByte a v).ST = s.ST := rfl
@[simp] theorem State.writeByte_fault (s : State) (a : Nat) (v : Byte) : (s.writeByte a v).fault = s.fault := rfl
@[simp] theorem State.writeByte_faultCode (s : State) (a : Nat) (v : Byte) : (s.writeByte a v).faultCode = s.faultCode := rfl
@[simp] theorem State.writeByte_faultInfo (s : State) (a : Nat) (v : Byte) : (s.writeByte a v).faultInfo = s.faultInfo := rfl
@[simp] theorem State.writeByte_mem (s : State) (a : Nat) (v : Byte) : (s.writeByte a v).mem = Memory.write s.cfg s.mem a v := rfl
@[simp] theorem State.writeByte_disp (s : State) (a : Nat) (v : Byte) : (s.writeByte a v).disp = s.disp := rfl
@[simp] theorem State.writeByte_key (s : State) (a : Nat) (v : Byte) : (s.writeByte a v).key = s.key := rfl
@[simp] theorem State.writeByte_instr (s : State) (a : Nat) (v : Byte) : (s.writeByte a v).instr = s.instr := rfl
@[simp] theorem State.writeByte_tone (s : State) (a : Nat) (v : Byte) : (s.writeByte a v).tone = s.tone := rfl
@[simp] theorem State.writeByte_unknown (s : State) (a : Nat) (v : Byte) : (s.writeByte a v).unknown = s.unknown := rfl
@[simp] theorem State.writeByte_loadError (s : State) (a : Nat) (v : Byte) : (s.writeByte a v).loadError = s.loadError := rfl
@[simp] theorem State.writeByte_keysIn (s : State) (a : Nat) (v : Byte) : (s.writeByte a v).keysIn = s.keysIn := rfl
@[simp] theorem State.writeByte_started (s : State) (a : Nat) (v : Byte) : (s.writeByte a v).started = s.started := rfl
@[simp] theorem State.writeByte_draws (s : State) (a : Nat) (v : Byte) : (s.writeByte a v).draws = s.draws := rfl
@[simp] theorem State.writeByte_cfg (s : State) (a : Nat) (v : Byte) : (s.writeByte a v).cfg = s.cfg := rfl
@[simp] theorem State.reg_writeByte (s : State) (a : Nat) (v : Byte) (q : Reg) : (s.writeByte a v).reg q = s.reg q := rfl

/-! ### `latchFault` -/

@[simp] theorem State.latchFault_regs (s : State) (c : BitVec 3) (w : Word) : (s.latchFault c w).regs = s.regs := rfl
@[simp] theorem State.latchFault_pc (s : State) (c : BitVec 3) (w : Word) : (s.latchFault c w).pc = s.pc := rfl
@[simp] theorem State.latchFault_I (s : State) (c : BitVec 3) (w : Word) : (s.latchFault c w).I = s.I := rfl
@[simp] theorem State.latchFault_sp (s : State) (c : BitVec 3) (w : Word) : (s.latchFault c w).sp = s.sp := rfl
@[simp] theorem State.latchFault_stack (s : State) (c : BitVec 3) (w : Word) : (s.latchFault c w).stack = s.stack := rfl
@[simp] theorem State.latchFault_DT (s : State) (c : BitVec 3) (w : Word) : (s.latchFault c w).DT = s.DT := rfl
@[simp] theorem State.latchFault_ST (s : State) (c : BitVec 3) (w : Word) : (s.latchFault c w).ST = s.ST := rfl
@[simp] theorem State.latchFault_fault (s : State) (c : BitVec 3) (w : Word) : (s.latchFault c w).fault = true := rfl
@[simp] theorem State.latchFault_faultCode (s : State) (c : BitVec 3) (w : Word) : (s.latchFault c w).faultCode = c := rfl
@[simp] theorem State.latchFault_faultInfo (s : State) (c : BitVec 3) (w : Word) : (s.latchFault c w).faultInfo = w := rfl
@[simp] theorem State.latchFault_mem (s : State) (c : BitVec 3) (w : Word) : (s.latchFault c w).mem = s.mem := rfl
@[simp] theorem State.latchFault_disp (s : State) (c : BitVec 3) (w : Word) : (s.latchFault c w).disp = s.disp := rfl
@[simp] theorem State.latchFault_key (s : State) (c : BitVec 3) (w : Word) : (s.latchFault c w).key = s.key := rfl
@[simp] theorem State.latchFault_instr (s : State) (c : BitVec 3) (w : Word) : (s.latchFault c w).instr = s.instr := rfl
@[simp] theorem State.latchFault_tone (s : State) (c : BitVec 3) (w : Word) : (s.latchFault c w).tone = false := rfl
@[simp] theorem State.latchFault_unknown (s : State) (c : BitVec 3) (w : Word) : (s.latchFault c w).unknown = none := rfl
@[simp] theorem State.latchFault_loadError (s : State) (c : BitVec 3) (w : Word) : (s.latchFault c w).loadError = s.loadError := rfl
@[simp] theorem State.latchFault_keysIn (s : State) (c : BitVec 3) (w : Word) : (s.latchFault c w).keysIn = s.keysIn := rfl
@[simp] theorem State.latchFault_started (s : State) (c : BitVec 3) (w : Word) : (s.latchFault c w).started = s.started := rfl
@[simp] theorem State.latchFault_draws (s : State) (c : BitVec 3) (w : Word) : (s.latchFault c w).draws = s.draws := rfl
@[simp] theorem State.latchFault_cfg (s : State) (c : BitVec 3) (w : Word) : (s.latchFault c w).cfg = s.cfg := rfl
@[simp] theorem State.reg_latchFault (s : State) (c : BitVec 3) (w : Word) (q : Reg) : (s.latchFault c w).reg q = s.reg q := rfl
@[simp] theorem State.readByte_latchFault (s : State) (c : BitVec 3) (w : Word) (b : Nat) : (s.latchFault c w).readByte b = s.readByte b := rfl

/-! ### `raise` -/

@[simp] theorem State.raise_regs (s : State) (f : RunFault) (w : Word) : (s.raise f w).regs = s.regs := rfl
@[simp] theorem State.raise_pc (s : State) (f : RunFault) (w : Word) : (s.raise f w).pc = s.pc := rfl
@[simp] theorem State.raise_I (s : State) (f : RunFault) (w : Word) : (s.raise f w).I = s.I := rfl
@[simp] theorem State.raise_sp (s : State) (f : RunFault) (w : Word) : (s.raise f w).sp = s.sp := rfl
@[simp] theorem State.raise_stack (s : State) (f : RunFault) (w : Word) : (s.raise f w).stack = s.stack := rfl
@[simp] theorem State.raise_DT (s : State) (f : RunFault) (w : Word) : (s.raise f w).DT = s.DT := rfl
@[simp] theorem State.raise_ST (s : State) (f : RunFault) (w : Word) : (s.raise f w).ST = s.ST := rfl
@[simp] theorem State.raise_fault (s : State) (f : RunFault) (w : Word) : (s.raise f w).fault = true := rfl
@[simp] theorem State.raise_faultCode (s : State) (f : RunFault) (w : Word) : (s.raise f w).faultCode = f.code := rfl
@[simp] theorem State.raise_faultInfo (s : State) (f : RunFault) (w : Word) : (s.raise f w).faultInfo = w := rfl
@[simp] theorem State.raise_mem (s : State) (f : RunFault) (w : Word) : (s.raise f w).mem = s.mem := rfl
@[simp] theorem State.raise_disp (s : State) (f : RunFault) (w : Word) : (s.raise f w).disp = s.disp := rfl
@[simp] theorem State.raise_key (s : State) (f : RunFault) (w : Word) : (s.raise f w).key = s.key := rfl
@[simp] theorem State.raise_instr (s : State) (f : RunFault) (w : Word) : (s.raise f w).instr = s.instr := rfl
@[simp] theorem State.raise_tone (s : State) (f : RunFault) (w : Word) : (s.raise f w).tone = false := rfl
@[simp] theorem State.raise_unknown (s : State) (f : RunFault) (w : Word) : (s.raise f w).unknown = none := rfl
@[simp] theorem State.raise_loadError (s : State) (f : RunFault) (w : Word) : (s.raise f w).loadError = s.loadError := rfl
@[simp] theorem State.raise_keysIn (s : State) (f : RunFault) (w : Word) : (s.raise f w).keysIn = s.keysIn := rfl
@[simp] theorem State.raise_started (s : State) (f : RunFault) (w : Word) : (s.raise f w).started = s.started := rfl
@[simp] theorem State.raise_draws (s : State) (f : RunFault) (w : Word) : (s.raise f w).draws = s.draws := rfl
@[simp] theorem State.raise_cfg (s : State) (f : RunFault) (w : Word) : (s.raise f w).cfg = s.cfg := rfl
@[simp] theorem State.reg_raise (s : State) (f : RunFault) (w : Word) (q : Reg) : (s.raise f w).reg q = s.reg q := rfl
@[simp] theorem State.readByte_raise (s : State) (f : RunFault) (w : Word) (b : Nat) : (s.raise f w).readByte b = s.readByte b := rfl

/-! ### `advance` -/

@[simp] theorem State.advance_regs (s : State) : (s.advance).regs = s.regs := rfl
@[simp] theorem State.advance_pc (s : State) : (s.advance).pc = s.pc + 2 := rfl
@[simp] theorem State.advance_I (s : State) : (s.advance).I = s.I := rfl
@[simp] theorem State.advance_sp (s : State) : (s.advance).sp = s.sp := rfl
@[simp] theorem State.advance_stack (s : State) : (s.advance).stack = s.stack := rfl
@[simp] theorem State.advance_DT (s : State) : (s.advance).DT = s.DT := rfl
@[simp] theorem State.advance_ST (s : State) : (s.advance).ST = s.ST := rfl
@[simp] theorem State.advance_fault (s : State) : (s.advance).fault = s.fault := rfl
@[simp] theorem State.advance_faultCode (s : State) : (s.advance).faultCode = s.faultCode := rfl
@[simp] theorem State.advance_faultInfo (s : State) : (s.advance).faultInfo = s.faultInfo := rfl
@[simp] theorem State.advance_mem (s : State) : (s.advance).mem = s.mem := rfl
@[simp] theorem State.advance_disp (s : State) : (s.advance).disp = s.disp := rfl
@[simp] theorem State.advance_key (s : State) : (s.advance).key = s.key := rfl
@[simp] theorem State.advance_instr (s : State) : (s.advance).instr = s.instr := rfl
@[simp] theorem State.advance_tone (s : State) : (s.advance).tone = s.tone := rfl
@[simp] theorem State.advance_unknown (s : State) : (s.advance).unknown = s.unknown := rfl
@[simp] theorem State.advance_loadError (s : State) : (s.advance).loadError = s.loadError := rfl
@[simp] theorem State.advance_keysIn (s : State) : (s.advance).keysIn = s.keysIn := rfl
@[simp] theorem State.advance_started (s : State) : (s.advance).started = s.started := rfl
@[simp] theorem State.advance_draws (s : State) : (s.advance).draws = s.draws := rfl
@[simp] theorem State.advance_cfg (s : State) : (s.advance).cfg = s.cfg := rfl
@[simp] theorem State.reg_advance (s : State) (q : Reg) : (s.advance).reg q = s.reg q := rfl
@[simp] theorem State.readByte_advance (s : State) (b : Nat) : (s.advance).readByte b = s.readByte b := rfl

/-! ### `beginExecute` -/

@[simp] theorem State.beginExecute_regs (s : State) (w : Word) : (s.beginExecute w).regs = s.regs := State.sampleKeys_regs s
@[simp] theorem State.beginExecute_pc (s : State) (w : Word) : (s.beginExecute w).pc = s.pc + 2 := by
  simp [State.beginExecute, State.advance]
@[simp] theorem State.beginExecute_I (s : State) (w : Word) : (s.beginExecute w).I = s.I := State.sampleKeys_I s
@[simp] theorem State.beginExecute_sp (s : State) (w : Word) : (s.beginExecute w).sp = s.sp := State.sampleKeys_sp s
@[simp] theorem State.beginExecute_stack (s : State) (w : Word) : (s.beginExecute w).stack = s.stack := State.sampleKeys_stack s
@[simp] theorem State.beginExecute_DT (s : State) (w : Word) : (s.beginExecute w).DT = s.DT := State.sampleKeys_DT s
@[simp] theorem State.beginExecute_ST (s : State) (w : Word) : (s.beginExecute w).ST = s.ST := State.sampleKeys_ST s
@[simp] theorem State.beginExecute_fault (s : State) (w : Word) : (s.beginExecute w).fault = s.fault := State.sampleKeys_fault s
@[simp] theorem State.beginExecute_faultCode (s : State) (w : Word) : (s.beginExecute w).faultCode = s.faultCode := State.sampleKeys_faultCode s
@[simp] theorem State.beginExecute_faultInfo (s : State) (w : Word) : (s.beginExecute w).faultInfo = s.faultInfo := State.sampleKeys_faultInfo s
@[simp] theorem State.beginExecute_mem (s : State) (w : Word) : (s.beginExecute w).mem = s.mem := State.sampleKeys_mem s
@[simp] theorem State.beginExecute_disp (s : State) (w : Word) : (s.beginExecute w).disp = s.disp := State.sampleKeys_disp s
@[simp] theorem State.beginExecute_key (s : State) (w : Word) : (s.beginExecute w).key = s.sampleKeys.key := rfl
@[simp] theorem State.beginExecute_instr (s : State) (w : Word) : (s.beginExecute w).instr = w := rfl
@[simp] theorem State.beginExecute_tone (s : State) (w : Word) : (s.beginExecute w).tone = false := rfl
@[simp] theorem State.beginExecute_unknown (s : State) (w : Word) : (s.beginExecute w).unknown = none := rfl
@[simp] theorem State.beginExecute_loadError (s : State) (w : Word) : (s.beginExecute w).loadError = s.loadError := State.sampleKeys_loadError s
@[simp] theorem State.beginExecute_keysIn (s : State) (w : Word) : (s.beginExecute w).keysIn = s.sampleKeys.keysIn := rfl
@[simp] theorem State.beginExecute_started (s : State) (w : Word) : (s.beginExecute w).started = true := rfl
@[simp] theorem State.beginExecute_draws (s : State) (w : Word) : (s.beginExecute w).draws = s.draws := State.sampleKeys_draws s
@[simp] theorem State.beginExecute_cfg (s : State) (w : Word) : (s.beginExecute w).cfg = s.cfg := State.sampleKeys_cfg s
@[simp] theorem State.reg_beginExecute (s : State) (w : Word) (q : Reg) : (s.beginExecute w).reg q = s.reg q := by
  simp [State.reg]
@[simp] theorem State.readByte_beginExecute (s : State) (w : Word) (b : Nat) : (s.beginExecute w).readByte b = s.readByte b := by
  simp [State.readByte]

/-! ### `reportUnknown` -/

@[simp] theorem State.reportUnknown_regs (s : State) (w : Word) : (s.reportUnknown w).regs = s.regs := rfl
@[simp] theorem State.reportUnknown_pc (s : State) (w : Word) : (s.reportUnknown w).pc = s.pc := rfl
@[simp] theorem State.reportUnknown_I (s : State) (w : Word) : (s.reportUnknown w).I = s.I := rfl
@[simp] theorem State.reportUnknown_sp (s : State) (w : Word) : (s.reportUnknown w).sp = s.sp := rfl
@[simp] theorem State.reportUnknown_stack (s : State) (w : Word) : (s.reportUnknown w).stack = s.stack := rfl
@[simp] theorem State.reportUnknown_DT (s : State) (w : Word) : (s.reportUnknown w).DT = s.DT := rfl
@[simp] theorem State.reportUnknown_ST (s : State) (w : Word) : (s.reportUnknown w).ST = s.ST := rfl
@[simp] theorem State.reportUnknown_fault (s : State) (w : Word) : (s.reportUnknown w).fault = s.fault := rfl
@[simp] theorem State.reportUnknown_faultCode (s : State) (w : Word) : (s.reportUnknown w).faultCode = s.faultCode := rfl
@[simp] theorem State.reportUnknown_faultInfo (s : State) (w : Word) : (s.reportUnknown w).faultInfo = s.faultInfo := rfl
@[simp] theorem State.reportUnknown_mem (s : State) (w : Word) : (s.reportUnknown w).mem = s.mem := rfl
@[simp] theorem State.reportUnknown_disp (s : State) (w : Word) : (s.reportUnknown w).disp = s.disp := rfl
@[simp] theorem State.reportUnknown_key (s : State) (w : Word) : (s.reportUnknown w).key = s.key := rfl
@[simp] theorem State.reportUnknown_instr (s : State) (w : Word) : (s.reportUnknown w).instr = s.instr := rfl
@[simp] theorem State.reportUnknown_tone (s : State) (w : Word) : (s.reportUnknown w).tone = s.tone := rfl
@[simp] theorem State.reportUnknown_unknown (s : State) (w : Word) : (s.reportUnknown w).unknown = some w := rfl
@[simp] theorem State.reportUnknown_loadError (s : State) (w : Word) : (s.reportUnknown w).loadError = s.loadError := rfl
@[simp] theorem State.reportUnknown_keysIn (s : State) (w : Word) : (s.reportUnknown w).keysIn = s.keysIn := rfl
@[simp] theorem State.reportUnknown_started (s : State) (w : Word) : (s.reportUnknown w).started = s.started := rfl
@[simp] theorem State.reportUnknown_draws (s : State) (w : Word) : (s.reportUnknown w).draws = s.draws := rfl
@[simp] theorem State.reportUnknown_cfg (s : State) (w : Word) : (s.reportUnknown w).cfg = s.cfg := rfl
@[simp] theorem State.reg_reportUnknown (s : State) (w : Word) (q : Reg) : (s.reportUnknown w).reg q = s.reg q := rfl
@[simp] theorem State.readByte_reportUnknown (s : State) (w : Word) (b : Nat) : (s.reportUnknown w).readByte b = s.readByte b := rfl

/-! ### `timerStage` -/

@[simp] theorem State.timerStage_regs (s : State) : (s.timerStage).regs = s.regs := rfl
@[simp] theorem State.timerStage_pc (s : State) : (s.timerStage).pc = s.pc := rfl
@[simp] theorem State.timerStage_I (s : State) : (s.timerStage).I = s.I := rfl
@[simp] theorem State.timerStage_sp (s : State) : (s.timerStage).sp = s.sp := rfl
@[simp] theorem State.timerStage_stack (s : State) : (s.timerStage).stack = s.stack := rfl
@[simp] theorem State.timerStage_DT (s : State) : (s.timerStage).DT = decTimer s.DT := rfl
@[simp] theorem State.timerStage_ST (s : State) : (s.timerStage).ST = decTimer s.ST := rfl
@[simp] theorem State.timerStage_fault (s : State) : (s.timerStage).fault = s.fault := rfl
@[simp] theorem State.timerStage_faultCode (s : State) : (s.timerStage).faultCode = s.faultCode := rfl
@[simp] theorem State.timerStage_faultInfo (s : State) : (s.timerStage).faultInfo = s.faultInfo := rfl
@[simp] theorem State.timerStage_mem (s : State) : (s.timerStage).mem = s.mem := rfl
@[simp] theorem State.timerStage_disp (s : State) : (s.timerStage).disp = s.disp := rfl
@[simp] theorem State.timerStage_key (s : State) : (s.timerStage).key = s.key := rfl
@[simp] theorem State.timerStage_instr (s : State) : (s.timerStage).instr = s.instr := rfl
@[simp] theorem State.timerStage_tone (s : State) : (s.timerStage).tone = (s.ST == 1) := rfl
@[simp] theorem State.timerStage_unknown (s : State) : (s.timerStage).unknown = s.unknown := rfl
@[simp] theorem State.timerStage_loadError (s : State) : (s.timerStage).loadError = s.loadError := rfl
@[simp] theorem State.timerStage_keysIn (s : State) : (s.timerStage).keysIn = s.keysIn := rfl
@[simp] theorem State.timerStage_started (s : State) : (s.timerStage).started = s.started := rfl
@[simp] theorem State.timerStage_draws (s : State) : (s.timerStage).draws = s.draws := rfl
@[simp] theorem State.timerStage_cfg (s : State) : (s.timerStage).cfg = s.cfg := rfl
@[simp] theorem State.reg_timerStage (s : State) (q : Reg) : (s.timerStage).reg q = s.reg q := rfl
@[simp] theorem State.readByte_timerStage (s : State) (b : Nat) : (s.timerStage).readByte b = s.readByte b := rfl

/-! ### `setResultFlag` -/

@[simp] theorem State.setResultFlag_regs (s : State) (x : Reg) (v f : Byte) : (s.setResultFlag x v f).regs = (s.regs.set x v).set VF f := rfl
@[simp] theorem State.setResultFlag_pc (s : State) (x : Reg) (v f : Byte) : (s.setResultFlag x v f).pc = s.pc := rfl
@[simp] theorem State.setResultFlag_I (s : State) (x : Reg) (v f : Byte) : (s.setResultFlag x v f).I = s.I := rfl
@[simp] theorem State.setResultFlag_sp (s : State) (x : Reg) (v f : Byte) : (s.setResultFlag x v f).sp = s.sp := rfl
@[simp] theorem State.setResultFlag_stack (s : State) (x : Reg) (v f : Byte) : (s.setResultFlag x v f).stack = s.stack := rfl
@[simp] theorem State.setResultFlag_DT (s : State) (x : Reg) (v f : Byte) : (s.setResultFlag x v f).DT = s.DT := rfl
@[simp] theorem State.setResultFlag_ST (s : State) (x : Reg) (v f : Byte) : (s.setResultFlag x v f).ST = s.ST := rfl
@[simp] theorem State.setResultFlag_fault (s : State) (x : Reg) (v f : Byte) : (s.setResultFlag x v f).fault = s.fault := rfl
@[simp] theorem State.setResultFlag_faultCode (s : State) (x : Reg) (v f : Byte) : (s.setResultFlag x v f).faultCode = s.faultCode := rfl
@[simp] theorem State.setResultFlag_faultInfo (s : State) (x : Reg) (v f : Byte) : (s.setResultFlag x v f).faultInfo = s.faultInfo := rfl
@[simp] theorem State.setResultFlag_mem (s : State) (x : Reg) (v f : Byte) : (s.setResultFlag x v f).mem = s.mem := rfl
@[simp] theorem State.setResultFlag_disp (s : State) (x : Reg) (v f : Byte) : (s.setResultFlag x v f).disp = s.disp := rfl
@[simp] theorem State.setResultFlag_key (s : State) (x : Reg) (v f : Byte) : (s.setResultFlag x v f).key = s.key := rfl
@[simp] theorem State.setResultFlag_instr (s : State) (x : Reg) (v f : Byte) : (s.setResultFlag x v f).instr = s.instr := rfl
@[simp] theorem State.setResultFlag_tone (s : State) (x : Reg) (v f : Byte) : (s.setResultFlag x v f).tone = s.tone := rfl
@[simp] theorem State.setResultFlag_unknown (s : State) (x : Reg) (v f : Byte) : (s.setResultFlag x v f).unknown = s.unknown := rfl
@[simp] theorem State.setResultFlag_loadError (s : State) (x : Reg) (v f : Byte) : (s.setResultFlag x v f).loadError = s.loadError := rfl
@[simp] theorem State.setResultFlag_keysIn (s : State) (x : Reg) (v f : Byte) : (s.setResultFlag x v f).keysIn = s.keysIn := rfl
@[simp] theorem State.setResultFlag_started (s : State) (x : Reg) (v f : Byte) : (s.setResultFlag x v f).started = s.started := rfl
@[simp] theorem State.setResultFlag_draws (s : State) (x : Reg) (v f : Byte) : (s.setResultFlag x v f).draws = s.draws := rfl
@[simp] theorem State.setResultFlag_cfg (s : State) (x : Reg) (v f : Byte) : (s.setResultFlag x v f).cfg = s.cfg := rfl
@[simp] theorem State.readByte_setResultFlag (s : State) (x : Reg) (v f : Byte) (b : Nat) : (s.setResultFlag x v f).readByte b = s.readByte b := rfl

/-! ### `maskedDraw` -/

@[simp] theorem State.maskedDraw_regs (s : State) (x : Reg) (nn r : Byte) : (s.maskedDraw x nn r).regs = s.regs.set x (r &&& nn) := rfl
@[simp] theorem State.maskedDraw_pc (s : State) (x : Reg) (nn r : Byte) : (s.maskedDraw x nn r).pc = s.pc := rfl
@[simp] theorem State.maskedDraw_I (s : State) (x : Reg) (nn r : Byte) : (s.maskedDraw x nn r).I = s.I := rfl
@[simp] theorem State.maskedDraw_sp (s : State) (x : Reg) (nn r : Byte) : (s.maskedDraw x nn r).sp = s.sp := rfl
@[simp] theorem State.maskedDraw_stack (s : State) (x : Reg) (nn r : Byte) : (s.maskedDraw x nn r).stack = s.stack := rfl
@[simp] theorem State.maskedDraw_DT (s : State) (x : Reg) (nn r : Byte) : (s.maskedDraw x nn r).DT = s.DT := rfl
@[simp] theorem State.maskedDraw_ST (s : State) (x : Reg) (nn r : Byte) : (s.maskedDraw x nn r).ST = s.ST := rfl
@[simp] theorem State.maskedDraw_fault (s : State) (x : Reg) (nn r : Byte) : (s.maskedDraw x nn r).fault = s.fault := rfl
@[simp] theorem State.maskedDraw_faultCode (s : State) (x : Reg) (nn r : Byte) : (s.maskedDraw x nn r).faultCode = s.faultCode := rfl
@[simp] theorem State.maskedDraw_faultInfo (s : State) (x : Reg) (nn r : Byte) : (s.maskedDraw x nn r).faultInfo = s.faultInfo := rfl
@[simp] theorem State.maskedDraw_mem (s : State) (x : Reg) (nn r : Byte) : (s.maskedDraw x nn r).mem = s.mem := rfl
@[simp] theorem State.maskedDraw_disp (s : State) (x : Reg) (nn r : Byte) : (s.maskedDraw x nn r).disp = s.disp := rfl
@[simp] theorem State.maskedDraw_key (s : State) (x : Reg) (nn r : Byte) : (s.maskedDraw x nn r).key = s.key := rfl
@[simp] theorem State.maskedDraw_instr (s : State) (x : Reg) (nn r : Byte) : (s.maskedDraw x nn r).instr = s.instr := rfl
@[simp] theorem State.maskedDraw_tone (s : State) (x : Reg) (nn r : Byte) : (s.maskedDraw x nn r).tone = s.tone := rfl
@[simp] theorem State.maskedDraw_unknown (s : State) (x : Reg) (nn r : Byte) : (s.maskedDraw x nn r).unknown = s.unknown := rfl
@[simp] theorem State.maskedDraw_loadError (s : State) (x : Reg) (nn r : Byte) : (s.maskedDraw x nn r).loadError = s.loadError := rfl
@[simp] theorem State.maskedDraw_keysIn (s : State) (x : Reg) (nn r : Byte) : (s.maskedDraw x nn r).keysIn = s.keysIn := rfl
@[simp] theorem State.maskedDraw_started (s : State) (x : Reg) (nn r : Byte) : (s.maskedDraw x nn r).started = s.started := rfl
@[simp] theorem State.maskedDraw_draws (s : State) (x : Reg) (nn r : Byte) : (s.maskedDraw x nn r).draws = s.draws + 1 := rfl
@[simp] theorem State.maskedDraw_cfg (s : State) (x : Reg) (nn r : Byte) : (s.maskedDraw x nn r).cfg = s.cfg := rfl
@[simp] theorem State.readByte_maskedDraw (s : State) (x : Reg) (nn r : Byte) (b : Nat) : (s.maskedDraw x nn r).readByte b = s.readByte b := rfl

/-! ### `drawAt` -/

@[simp] theorem State.drawAt_pc (s : State) (vx vy : Byte) (rows : List Byte) : (s.drawAt vx vy rows).pc = s.pc := rfl
@[simp] theorem State.drawAt_I (s : State) (vx vy : Byte) (rows : List Byte) : (s.drawAt vx vy rows).I = s.I := rfl
@[simp] theorem State.drawAt_sp (s : State) (vx vy : Byte) (rows : List Byte) : (s.drawAt vx vy rows).sp = s.sp := rfl
@[simp] theorem State.drawAt_stack (s : State) (vx vy : Byte) (rows : List Byte) : (s.drawAt vx vy rows).stack = s.stack := rfl
@[simp] theorem State.drawAt_DT (s : State) (vx vy : Byte) (rows : List Byte) : (s.drawAt vx vy rows).DT = s.DT := rfl
@[simp] theorem State.drawAt_ST (s : State) (vx vy : Byte) (rows : List Byte) : (s.drawAt vx vy rows).ST = s.ST := rfl
@[simp] theorem State.drawAt_fault (s : State) (vx vy : Byte) (rows : List Byte) : (s.drawAt vx vy rows).fault = s.fault := rfl
@[simp] theorem State.drawAt_faultCode (s : State) (vx vy : Byte) (rows : List Byte) : (s.drawAt vx vy rows).faultCode = s.faultCode := rfl
@[simp] theorem State.drawAt_faultInfo (s : State) (vx vy : Byte) (rows : List Byte) : (s.drawAt vx vy rows).faultInfo = s.faultInfo := rfl
@[simp] theorem State.drawAt_mem (s : State) (vx vy : Byte) (rows : List Byte) : (s.drawAt vx vy rows).mem = s.mem := rfl
@[simp] theorem State.drawAt_disp (s : State) (vx vy : Byte) (rows : List Byte) : (s.drawAt vx vy rows).disp = (drawSprite (s.disp, false) rows (vy.toNat % 32) (vx.toNat % 64)).1 := rfl
@[simp] theorem State.drawAt_key (s : State) (vx vy : Byte) (rows : List Byte) : (s.drawAt vx vy rows).key = s.key := rfl
@[simp] theorem State.drawAt_instr (s : State) (vx vy : Byte) (rows : List Byte) : (s.drawAt vx vy rows).instr = s.instr := rfl
@[simp] theorem State.drawAt_tone (s : State) (vx vy : Byte) (rows : List Byte) : (s.drawAt vx vy rows).tone = s.tone := rfl
@[simp] theorem State.drawAt_unknown (s : State) (vx vy : Byte) (rows : List Byte) : (s.drawAt vx vy rows).unknown = s.unknown := rfl
@[simp] theorem State.drawAt_loadError (s : State) (vx vy : Byte) (rows : List Byte) : (s.drawAt vx vy rows).loadError = s.loadError := rfl
@[simp] theorem State.drawAt_keysIn (s : State) (vx vy : Byte) (rows : List Byte) : (s.drawAt vx vy rows).keysIn = s.keysIn := rfl
@[simp] theorem State.drawAt_started (s : State) (vx vy : Byte) (rows : List Byte) : (s.drawAt vx vy rows).started = s.started := rfl
@[simp] theorem State.drawAt_draws (s : State) (vx vy : Byte) (rows : List Byte) : (s.drawAt vx vy rows).draws = s.draws := rfl
@[simp] theorem State.drawAt_cfg (s : State) (vx vy : Byte) (rows : List Byte) : (s.drawAt vx vy rows).cfg = s.cfg := rfl
@[simp] theorem State.readByte_drawAt (s : State) (vx vy : Byte) (rows : List Byte) (b : Nat) : (s.drawAt vx vy rows).readByte b = s.readByte b := rfl

/-! ### `loadRegsUpTo` -/

@[simp] theorem State.loadRegsUpTo_pc (s : State) (x : Reg) : (s.loadRegsUpTo x).pc = s.pc := State.setRegs_pc _ _
@[simp] theorem State.loadRegsUpTo_I (s : State) (x : Reg) : (s.loadRegsUpTo x).I = s.I := State.setRegs_I _ _
@[simp] theorem State.loadRegsUpTo_sp (s : State) (x : Reg) : (s.loadRegsUpTo x).sp = s.sp := State.setRegs_sp _ _
@[simp] theorem State.loadRegsUpTo_stack (s : State) (x : Reg) : (s.loadRegsUpTo x).stack = s.stack := State.setRegs_stack _ _
@[simp] theorem State.loadRegsUpTo_DT (s : State) (x : Reg) : (s.loadRegsUpTo x).DT = s.DT := State.setRegs_DT _ _
@[simp] theorem State.loadRegsUpTo_ST (s : State) (x : Reg) : (s.loadRegsUpTo x).ST = s.ST := State.setRegs_ST _ _
@[simp] theorem State.loadRegsUpTo_fault (s : State) (x : Reg) : (s.loadRegsUpTo x).fault = s.fault := State.setRegs_fault _ _
@[simp] theorem State.loadRegsUpTo_faultCode (s : State) (x : Reg) : (s.loadRegsUpTo x).faultCode = s.faultCode := State.setRegs_faultCode _ _
@[simp] theorem State.loadRegsUpTo_faultInfo (s : State) (x : Reg) : (s.loadRegsUpTo x).faultInfo = s.faultInfo := State.setRegs_faultInfo _ _
@[simp] theorem State.loadRegsUpTo_mem (s : State) (x : Reg) : (s.loadRegsUpTo x).mem = s.mem := State.setRegs_mem _ _
@[simp] theorem State.loadRegsUpTo_disp (s : State) (x : Reg) : (s.loadRegsUpTo x).disp = s.disp := State.setRegs_disp _ _
@[simp] theorem State.loadRegsUpTo_key (s : State) (x : Reg) : (s.loadRegsUpTo x).key = s.key := State.setRegs_key _ _
@[simp] theorem State.loadRegsUpTo_instr (s : State) (x : Reg) : (s.loadRegsUpTo x).instr = s.instr := State.setRegs_instr _ _
@[simp] theorem State.loadRegsUpTo_tone (s : State) (x : Reg) : (s.loadRegsUpTo x).tone = s.tone := State.setRegs_tone _ _
@[simp] theorem State.loadRegsUpTo_unknown (s : State) (x : Reg) : (s.loadRegsUpTo x).unknown = s.unknown := State.setRegs_unknown _ _
@[simp] theorem State.loadRegsUpTo_loadError (s : State) (x : Reg) : (s.loadRegsUpTo x).loadError = s.loadError := State.setRegs_loadError _ _
@[simp] theorem State.loadRegsUpTo_keysIn (s : State) (x : Reg) : (s.loadRegsUpTo x).keysIn = s.keysIn := State.setRegs_keysIn _ _
@[simp] theorem State.loadRegsUpTo_started (s : State) (x : Reg) : (s.loadRegsUpTo x).started = s.started := State.setRegs_started _ _
@[simp] theorem State.loadRegsUpTo_draws (s : State) (x : Reg) : (s.loadRegsUpTo x).draws = s.draws := State.setRegs_draws _ _
@[simp] theorem State.loadRegsUpTo_cfg (s : State) (x : Reg) : (s.loadRegsUpTo x).cfg = s.cfg := State.setRegs_cfg _ _
@[simp] theorem State.readByte_loadRegsUpTo (s : State) (x : Reg) (b : Nat) : (s.loadRegsUpTo x).readByte b = s.readByte b := State.readByte_setRegs _ _ _

/-! ### Reading a register after writing one -/

@[simp] theorem State.reg_setReg (s : State) (r q : Reg) (v : Byte) :
    (s.setReg r v).reg q = if q = r then v else s.reg q := by
  by_cases h : q = r
  · subst h; simp [State.reg]
  · have : r.val ≠ q.val := fun e => h (Fin.ext e.symm)
    simp [State.reg, h, this]
@[simp] theorem State.reg_setResultFlag (s : State) (x q : Reg) (v f : Byte) :
    (s.setResultFlag x v f).reg q = if q = VF then f else if q = x then v else s.reg q := by
  simp [State.setResultFlag]
@[simp] theorem State.reg_maskedDraw (s : State) (x q : Reg) (nn r : Byte) :
    (s.maskedDraw x nn r).reg q = if q = x then r &&& nn else s.reg q := by
  simp [State.maskedDraw]
@[simp] theorem State.reg_drawAt (s : State) (vx vy : Byte) (rows : List Byte) (q : Reg) :
    (s.drawAt vx vy rows).reg q = if q = VF then
      flagByte (drawSprite (s.disp, false) rows (vy.toNat % 32) (vx.toNat % 64)).2 else s.reg q := by
  simp [State.drawAt]
@[simp] theorem State.reg_loadRegsUpTo (s : State) (x q : Reg) :
    (s.loadRegsUpTo x).reg q = if q ≤ x then s.readByte (s.I.toNat + q.val) else s.reg q := by
  simp [State.loadRegsUpTo, State.reg, State.setRegs]

end Sys2Proof.Machine
end

