-- ==== Sys2Proof/Laws/Display.lean ====
section
/-! SUPPORT. The sprite composer in closed form (43_display R122): which cells a sprite changes, and its flag. -/

namespace Sys2Proof.Machine

/-- A sprite of these rows at row y0, column x0 has a 1 bit on the cell (y, x) of the display. -/
def spriteBit (rows : List Byte) (y0 x0 y x : Nat) : Bool :=
  decide (y0 ≤ y ∧ y < y0 + rows.length ∧ y < 32 ∧ x0 ≤ x ∧ x < x0 + 8 ∧ x < 64) &&
    (rows.getD (y - y0) 0).getLsbD (7 - (x - x0))

theorem Display.cell_of_lt (d : Display) (y x : Nat) (hy : y < 32) (hx : x < 64) : d.cell y x = d[y][x] := by
  simp [Display.cell, hy, hx]

theorem Display.cell_outside (d : Display) (y x : Nat) (h : ¬ (y < 32 ∧ x < 64)) : d.cell y x = false := by
  simp [Display.cell, h]

/-- Two displays with the same cells are the same. -/
theorem Display.ext_cell (d e : Display) (h : ∀ y x, y < 32 → x < 64 → d.cell y x = e.cell y x) : d = e := by
  ext y hy x hx
  simpa [Display.cell, hy, hx] using h y x hy hx

@[simp] theorem clearDisplay_cell (y x : Nat) : clearDisplay.cell y x = false := by
  simp [clearDisplay, Display.cell]

theorem toggleCell_cell (acc : Display × Bool) (y x y' x' : Nat) :
    (toggleCell acc y x).1.cell y' x' =
      (acc.1.cell y' x' ^^ decide (y' = y ∧ x' = x ∧ y < 32 ∧ x < 64)) := by
  unfold toggleCell
  split
  · next h =>
    by_cases hin : y' < 32 ∧ x' < 64
    · simp only [Display.cell, hin, and_self, ↓reduceDIte]
      by_cases hy : y = y'
      · subst hy
        by_cases hx : x = x'
        · subst hx; simp [h]
        · have : ¬ x' = x := fun e => hx e.symm
          simp [hx, this]
      · have : ¬ y' = y := fun e => hy e.symm
        simp [hy, this]
    · have : ¬ (y' = y ∧ x' = x ∧ y < 32 ∧ x < 64) := by omega
      simp [Display.cell_outside _ _ _ hin, this]
  · next h =>
    have : ¬ (y' = y ∧ x' = x ∧ y < 32 ∧ x < 64) := by omega
    simp [this]

theorem toggleCell_flag (acc : Display × Bool) (y x : Nat) :
    (toggleCell acc y x).2 = (acc.2 || acc.1.cell y x) := by
  unfold toggleCell
  split
  · next h => simp [Display.cell, h]
  · next h => simp [Display.cell, h]

/-- The first `k` bits of a sprite row. -/
def drawBits (acc : Display × Bool) (b : Byte) (y x0 k : Nat) : Display × Bool :=
  (List.range k).foldl (fun acc c => if b.getLsbD (7 - c) then toggleCell acc y (x0 + c) else acc) acc

theorem drawBits_succ (acc : Display × Bool) (b : Byte) (y x0 k : Nat) :
    drawBits acc b y x0 (k + 1) =
      if b.getLsbD (7 - k) then toggleCell (drawBits acc b y x0 k) y (x0 + k) else drawBits acc b y x0 k := by
  simp [drawBits, List.range_succ]

theorem drawBits_cell (acc : Display × Bool) (b : Byte) (y x0 k y' x' : Nat) :
    (drawBits acc b y x0 k).1.cell y' x' =
      (acc.1.cell y' x' ^^
        (decide (y' = y ∧ y < 32 ∧ x0 ≤ x' ∧ x' < x0 + k ∧ x' < 64) && b.getLsbD (7 - (x' - x0)))) := by
  induction k with
  | zero =>
    have : ¬ (y' = y ∧ y < 32 ∧ x0 ≤ x' ∧ x' < x0 + 0 ∧ x' < 64) := by omega
    rw [decide_eq_false this]; simp [drawBits]
  | succ k ih =>
    rw [drawBits_succ]
    by_cases hx : x' = x0 + k
    · subst hx
      have h1 : ¬ (y' = y ∧ y < 32 ∧ x0 ≤ x0 + k ∧ x0 + k < x0 + k ∧ x0 + k < 64) := by omega
      have h2 : x0 + k - x0 = k := by omega
      have h3 : (y' = y ∧ y < 32 ∧ x0 ≤ x0 + k ∧ x0 + k < x0 + (k + 1) ∧ x0 + k < 64) ↔
          (y' = y ∧ x0 + k = x0 + k ∧ y < 32 ∧ x0 + k < 64) := by omega
      simp only [h1, decide_false, Bool.false_and, Bool.xor_false] at ih
      rw [h2, decide_eq_decide.mpr h3]
      split
      · next hb => rw [toggleCell_cell, ih, hb, Bool.and_true]
      · next hb => rw [ih]; simp [hb]
    · have h3 : (y' = y ∧ y < 32 ∧ x0 ≤ x' ∧ x' < x0 + (k + 1) ∧ x' < 64) ↔
          (y' = y ∧ y < 32 ∧ x0 ≤ x' ∧ x' < x0 + k ∧ x' < 64) := by omega
      have h4 : ¬ (y' = y ∧ x' = x0 + k ∧ y < 32 ∧ x0 + k < 64) := by omega
      simp only [h3]
      split
      · rw [toggleCell_cell, ih]; simp [h4]
      · exact ih

theorem drawBits_flag (acc : Display × Bool) (b : Byte) (y x0 k : Nat) :
    (drawBits acc b y x0 k).2 = true ↔
      acc.2 = true ∨ ∃ c, c < k ∧ b.getLsbD (7 - c) = true ∧ acc.1.cell y (x0 + c) = true := by
  induction k with
  | zero => simp [drawBits]
  | succ k ih =>
    rw [drawBits_succ]
    have hold : (drawBits acc b y x0 k).1.cell y (x0 + k) = acc.1.cell y (x0 + k) := by
      rw [drawBits_cell]
      have : ¬ (y = y ∧ y < 32 ∧ x0 ≤ x0 + k ∧ x0 + k < x0 + k ∧ x0 + k < 64) := by omega
      simp
    split
    · next hb =>
      rw [toggleCell_flag, Bool.or_eq_true, ih, hold]
      constructor
      · rintro ((h | ⟨c, hc, h⟩) | h)
        · exact .inl h
        · exact .inr ⟨c, by omega, h⟩
        · exact .inr ⟨k, by omega, hb, h⟩
      · rintro (h | ⟨c, hc, h⟩)
        · exact .inl (.inl h)
        · rcases Nat.lt_succ_iff_lt_or_eq.mp hc with hc | rfl
          · exact .inl (.inr ⟨c, hc, h⟩)
          · exact .inr h.2
    · next hb =>
      rw [ih]
      constructor
      · rintro (h | ⟨c, hc, h⟩)
        · exact .inl h
        · exact .inr ⟨c, by omega, h⟩
      · rintro (h | ⟨c, hc, h⟩)
        · exact .inl h
        · rcases Nat.lt_succ_iff_lt_or_eq.mp hc with hc | rfl
          · exact .inr ⟨c, hc, h⟩
          · exact absurd h.1 hb

theorem drawRow_cell (acc : Display × Bool) (b : Byte) (y x0 y' x' : Nat) :
    (drawRow acc b y x0).1.cell y' x' =
      (acc.1.cell y' x' ^^
        (decide (y' = y ∧ y < 32 ∧ x0 ≤ x' ∧ x' < x0 + 8 ∧ x' < 64) && b.getLsbD (7 - (x' - x0)))) :=
  drawBits_cell acc b y x0 8 y' x'

theorem drawRow_flag (acc : Display × Bool) (b : Byte) (y x0 : Nat) :
    (drawRow acc b y x0).2 = true ↔
      acc.2 = true ∨ ∃ c, c < 8 ∧ b.getLsbD (7 - c) = true ∧ acc.1.cell y (x0 + c) = true :=
  drawBits_flag acc b y x0 8

/-- A sprite toggles exactly the cells its 1 bits land on. -/
theorem drawSprite_cell (acc : Display × Bool) (rows : List Byte) (y0 x0 y x : Nat) :
    (drawSprite acc rows y0 x0).1.cell y x = (acc.1.cell y x ^^ spriteBit rows y0 x0 y x) := by
  induction rows generalizing acc y0 with
  | nil =>
    have : ¬ (y0 ≤ y ∧ y < y0 + 0 ∧ y < 32 ∧ x0 ≤ x ∧ x < x0 + 8 ∧ x < 64) := by omega
    simp only [drawSprite, spriteBit, List.length_nil, decide_eq_false this, Bool.false_and, Bool.xor_false]
  | cons b bs ih =>
    rw [drawSprite, ih, drawRow_cell, Bool.xor_assoc]
    congr 1
    have hlen : (b :: bs).length = bs.length + 1 := rfl
    by_cases hy : y = y0
    · subst hy
      have h1 : ¬ (y + 1 ≤ y ∧ y < y + 1 + bs.length ∧ y < 32 ∧ x0 ≤ x ∧ x < x0 + 8 ∧ x < 64) := by omega
      have h2 : (y ≤ y ∧ y < y + (b :: bs).length ∧ y < 32 ∧ x0 ≤ x ∧ x < x0 + 8 ∧ x < 64) ↔
          (y = y ∧ y < 32 ∧ x0 ≤ x ∧ x < x0 + 8 ∧ x < 64) := by rw [hlen]; omega
      simp only [spriteBit, decide_eq_false h1, decide_eq_decide.mpr h2]
      simp
    · have h1 : ¬ (y = y0 ∧ y0 < 32 ∧ x0 ≤ x ∧ x < x0 + 8 ∧ x < 64) := by omega
      have h2 : (y0 + 1 ≤ y ∧ y < y0 + 1 + bs.length ∧ y < 32 ∧ x0 ≤ x ∧ x < x0 + 8 ∧ x < 64) ↔
          (y0 ≤ y ∧ y < y0 + (b :: bs).length ∧ y < 32 ∧ x0 ≤ x ∧ x < x0 + 8 ∧ x < 64) := by
        rw [hlen]; omega
      simp only [spriteBit, decide_eq_false h1, decide_eq_decide.mpr h2]
      by_cases h3 : y0 ≤ y ∧ y < y0 + (b :: bs).length ∧ y < 32 ∧ x0 ≤ x ∧ x < x0 + 8 ∧ x < 64
      · have h4 : y - y0 = (y - (y0 + 1)) + 1 := by omega
        simp [h3, h4]
      · simp only [decide_eq_false h3, Bool.false_and, Bool.xor_false]

/-- The flag is set exactly when a cell the sprite changes was on before it. -/
theorem drawSprite_flag (acc : Display × Bool) (rows : List Byte) (y0 x0 : Nat) :
    (drawSprite acc rows y0 x0).2 = true ↔
      acc.2 = true ∨ ∃ y x, spriteBit rows y0 x0 y x = true ∧ acc.1.cell y x = true := by
  induction rows generalizing acc y0 with
  | nil =>
    simp only [drawSprite, spriteBit, List.length_nil, Bool.and_eq_true, decide_eq_true_eq]
    constructor
    · exact .inl
    · rintro (h | ⟨y, x, ⟨h, -⟩, -⟩)
      · exact h
      · omega
  | cons b bs ih =>
    rw [drawSprite, ih, drawRow_flag]
    have bit_cons : ∀ y x, spriteBit (b :: bs) y0 x0 y x = true ↔
        (y = y0 ∧ y0 < 32 ∧ x0 ≤ x ∧ x < x0 + 8 ∧ x < 64 ∧ b.getLsbD (7 - (x - x0)) = true) ∨
          spriteBit bs (y0 + 1) x0 y x = true := by
      intro y x
      have h := drawSprite_cell (clearDisplay, false) (b :: bs) y0 x0 y x
      rw [drawSprite, drawSprite_cell, drawRow_cell] at h
      by_cases hy : y = y0
      · subst hy
        have : spriteBit bs (y + 1) x0 y x = false := by simp [spriteBit]
        simp only [this, clearDisplay_cell, Bool.false_xor, Bool.xor_false] at h
        rw [this, ← h]; simp; tauto
      · simp only [hy, false_and, decide_false, Bool.false_and, clearDisplay_cell, Bool.false_xor] at h
        rw [← h]; simp [hy]
    have other_rows : ∀ y x, spriteBit bs (y0 + 1) x0 y x = true →
        (drawRow acc b y0 x0).1.cell y x = acc.1.cell y x := by
      intro y x h
      have hy : ¬ y = y0 := by
        simp only [spriteBit, Bool.and_eq_true, decide_eq_true_eq] at h; omega
      rw [drawRow_cell]; simp [hy]
    have on_screen : ∀ c, acc.1.cell y0 (x0 + c) = true → y0 < 32 ∧ x0 + c < 64 := by
      intro c h
      by_contra hn
      simp [Display.cell_outside _ _ _ hn] at h
    constructor
    · rintro ((h | ⟨c, hc, hb, h⟩) | ⟨y, x, hs, h⟩)
      · exact .inl h
      · refine .inr ⟨y0, x0 + c, (bit_cons _ _).mpr (.inl ?_), h⟩
        have := on_screen c h
        simp only [Nat.add_sub_cancel_left]
        exact ⟨trivial, this.1, by omega, by omega, this.2, hb⟩
      · exact .inr ⟨y, x, (bit_cons _ _).mpr (.inr hs), by rw [← other_rows y x hs]; exact h⟩
    · rintro (h | ⟨y, x, hs, h⟩)
      · exact .inl (.inl h)
      · rcases (bit_cons y x).mp hs with ⟨rfl, h1, h2, h3, h4, h5⟩ | hs'
        · exact .inl (.inr ⟨x - x0, by omega, h5, by rw [show x0 + (x - x0) = x by omega]; exact h⟩)
        · exact .inr ⟨y, x, hs', by rw [other_rows y x hs']; exact h⟩

end Sys2Proof.Machine
end

