-- ==== Sys2Proof/Laws/Memory.lean ====
section
/-! SUPPORT. Memory: a read after a write, the canonical form, and what a run of stores leaves. -/

namespace Sys2Proof.Machine

@[simp] theorem Memory.lookup_insert (m : Memory) (a b : Nat) (v : Byte) :
    (m.insert a v).lookup b = if b = a then some v else m.lookup b := by
  induction m with
  | nil => simp [Memory.insert, Memory.lookup]
  | cons p m ih =>
    obtain ⟨c, w⟩ := p
    simp only [Memory.insert]
    split
    · simp [Memory.lookup]
    · split
      · next h =>
        subst h
        by_cases hb : b = a <;> simp [Memory.lookup, hb]
      · next h =>
        simp only [Memory.lookup, ih]
        by_cases hb : b = c
        · simp [hb, Ne.symm h]
        · simp [hb]

@[simp] theorem Memory.lookup_erase (m : Memory) (a b : Nat) :
    (m.erase a).lookup b = if b = a then none else m.lookup b := by
  induction m with
  | nil => simp [Memory.erase, Memory.lookup]
  | cons p m ih =>
    obtain ⟨c, w⟩ := p
    simp only [Memory.erase] at ih ⊢
    by_cases hc : c = a
    · subst hc
      simp only [ne_eq, not_true_eq_false, decide_false, Bool.false_eq_true, not_false_eq_true,
        List.filter_cons_of_neg, ih, Memory.lookup]
      by_cases hb : b = c <;> simp [hb]
    · simp only [ne_eq, hc, not_false_eq_true, decide_true, List.filter_cons_of_pos, Memory.lookup, ih]
      by_cases hb : b = c
      · subst hb; simp [hc]
      · simp [hb]

/-- A read after a write to the same place gives the value written, and a write leaves every other place alone. -/
@[simp] theorem Memory.read_write (c : Config) (m : Memory) (a b : Nat) (v : Byte) :
    Memory.read c (Memory.write c m a v) b = if b = a then v else Memory.read c m b := by
  unfold Memory.write Memory.read
  split
  · next h => by_cases hb : b = a <;> simp [hb, h]
  · by_cases hb : b = a <;> simp [hb]

theorem Memory.insert_mem (m : Memory) (a : Nat) (v : Byte) :
    ∀ p ∈ m.insert a v, p = (a, v) ∨ p ∈ m := by
  induction m with
  | nil => simp [Memory.insert]
  | cons q m ih =>
    obtain ⟨c, w⟩ := q
    intro p hp
    simp only [Memory.insert] at hp
    split at hp
    · simpa using hp
    · split at hp
      · simp only [List.mem_cons] at hp ⊢; tauto
      · simp only [List.mem_cons] at hp ⊢
        rcases hp with hp | hp
        · tauto
        · rcases ih p hp with h | h <;> tauto

theorem Memory.insert_sorted (m : Memory) (a : Nat) (v : Byte)
    (h : m.Pairwise (fun p q => p.1 < q.1)) : (m.insert a v).Pairwise (fun p q => p.1 < q.1) := by
  induction m with
  | nil => simp [Memory.insert]
  | cons q m ih =>
    obtain ⟨c, w⟩ := q
    obtain ⟨hq, hm⟩ := List.pairwise_cons.mp h
    simp only [Memory.insert]
    split
    · next hac =>
      refine List.pairwise_cons.mpr ⟨fun p hp => ?_, h⟩
      rcases List.mem_cons.mp hp with rfl | hp
      · exact hac
      · exact lt_trans hac (hq p hp)
    · split
      · next hac => subst hac; exact List.pairwise_cons.mpr ⟨hq, hm⟩
      · refine List.pairwise_cons.mpr ⟨fun p hp => ?_, ih hm⟩
        rcases Memory.insert_mem m a v p hp with rfl | hp
        · simp only; omega
        · exact hq p hp

/-- A write inside memory keeps the canonical form. -/
theorem Memory.write_wf (c : Config) (m : Memory) (a : Nat) (v : Byte) (ha : a ≤ lastAddr)
    (h : Memory.wf c m) : Memory.wf c (Memory.write c m a v) := by
  obtain ⟨hs, he⟩ := h
  unfold Memory.write
  split
  · exact ⟨hs.filter _, fun p hp => he p (List.mem_of_mem_filter hp)⟩
  · next hv =>
    refine ⟨Memory.insert_sorted m a v hs, fun p hp => ?_⟩
    rcases Memory.insert_mem m a v p hp with rfl | hp
    · exact ⟨ha, hv⟩
    · exact he p hp

/-- Equal bytes everywhere make equal canonical memories. -/
theorem Memory.eq_of_read_eq (c : Config) (m m' : Memory) (h : Memory.wf c m) (h' : Memory.wf c m')
    (hr : ∀ a, Memory.read c m a = Memory.read c m' a) : m = m' := by
  have key : ∀ (m : Memory), Memory.wf c m → ∀ a, m.lookup a =
      if Memory.read c m a = resetByte c a then none else some (Memory.read c m a) := by
    intro m hm a
    unfold Memory.read
    cases hl : m.lookup a with
    | none => simp
    | some v =>
      have : (a, v) ∈ m := by
        clear hm
        induction m with
        | nil => simp [Memory.lookup] at hl
        | cons p m ih =>
          obtain ⟨b, w⟩ := p
          simp only [Memory.lookup] at hl
          split at hl
          · next hb => subst hb; simp_all
          · exact List.mem_cons_of_mem _ (ih hl)
      simp [(hm.2 _ this).2]
  have hl : ∀ a, m.lookup a = m'.lookup a := fun a => by rw [key m h, key m' h', hr]
  clear hr key
  obtain ⟨hs, -⟩ := h
  obtain ⟨hs', -⟩ := h'
  have none_below : ∀ (m : Memory) (b : Nat), (∀ p ∈ m, b < p.1) → m.lookup b = none := by
    intro m b
    induction m with
    | nil => simp [Memory.lookup]
    | cons p m ih =>
      intro hp
      have hb := hp p (by simp)
      rw [Memory.lookup, if_neg (by omega), ih (fun q hq => hp q (by simp [hq]))]
  induction m generalizing m' with
  | nil =>
    cases m' with
    | nil => rfl
    | cons p m' => have := hl p.1; simp [Memory.lookup] at this
  | cons p m ih =>
    obtain ⟨a, v⟩ := p
    obtain ⟨ha, hm⟩ := List.pairwise_cons.mp hs
    cases m' with
    | nil => have := hl a; simp [Memory.lookup] at this
    | cons q m' =>
      obtain ⟨b, w⟩ := q
      obtain ⟨hb, hm'⟩ := List.pairwise_cons.mp hs'
      have hab : a = b := by
        have h1 := hl a
        have h2 := hl b
        simp only [Memory.lookup, ↓reduceIte] at h1 h2
        by_contra hne
        rcases Nat.lt_or_gt_of_ne hne with hlt | hlt
        · rw [if_neg hne, none_below m' a (fun p hp => lt_trans hlt (hb p hp))] at h1
          simp at h1
        · rw [if_neg (Ne.symm hne), none_below m b (fun p hp => lt_trans hlt (ha p hp))] at h2
          simp at h2
      subst hab
      have hvw : v = w := by simpa [Memory.lookup] using hl a
      subst hvw
      rw [ih m' (fun x => ?_) hm hm']
      by_cases hx : x = a
      · subst hx; rw [none_below m x ha, none_below m' x hb]
      · simpa [Memory.lookup, hx] using hl x

/-! ### Bytes of the state -/

@[simp] theorem State.readByte_writeByte (s : State) (a b : Nat) (v : Byte) :
    (s.writeByte a v).readByte b = if b = a then v else s.readByte b := by
  simp [State.readByte]

/-- A run of stores: the k-th byte stands at `a + k`, every address outside the run reads as before. -/
theorem State.readByte_storeBytes (s : State) (a : Nat) (vs : List Byte) (b : Nat) :
    (s.storeBytes a vs).readByte b =
      if h : a ≤ b ∧ b < a + vs.length then vs[b - a]'(by omega) else s.readByte b := by
  induction vs generalizing s a with
  | nil => simp [State.storeBytes]
  | cons v vs ih =>
    rw [State.storeBytes, ih]
    by_cases h1 : a + 1 ≤ b ∧ b < a + 1 + vs.length
    · have h2 : a ≤ b ∧ b < a + (v :: vs).length := by simp only [List.length_cons]; omega
      rw [dif_pos h1, dif_pos h2]
      have : b - a = (b - (a + 1)) + 1 := by omega
      simp only [this, List.getElem_cons_succ]
    · rw [dif_neg h1, State.readByte_writeByte]
      by_cases h3 : b = a
      · subst h3; simp
      · rw [if_neg h3, dif_neg (by simp only [List.length_cons]; omega)]

/-- A run of stores changes nothing but memory. -/
theorem State.storeBytes_eq (s : State) (a : Nat) (vs : List Byte) :
    s.storeBytes a vs = { s with mem := (s.storeBytes a vs).mem } := by
  induction vs generalizing s a with
  | nil => rfl
  | cons v vs ih => rw [State.storeBytes, ih]; rfl

/-- A run of stores inside memory keeps the canonical form. -/
theorem State.storeBytes_wf (s : State) (a : Nat) (vs : List Byte) (h : a + vs.length ≤ lastAddr + 1)
    (hw : Memory.wf s.cfg s.mem) : Memory.wf s.cfg (s.storeBytes a vs).mem := by
  induction vs generalizing s a with
  | nil => exact hw
  | cons v vs ih =>
    simp only [List.length_cons] at h
    exact ih (s.writeByte a v) (a + 1) (by omega) (Memory.write_wf _ _ _ _ (by omega) hw)

@[simp] theorem State.storeBytes_regs (s : State) (a : Nat) (vs : List Byte) :
    (s.storeBytes a vs).regs = s.regs := by rw [State.storeBytes_eq]
@[simp] theorem State.storeBytes_pc (s : State) (a : Nat) (vs : List Byte) :
    (s.storeBytes a vs).pc = s.pc := by rw [State.storeBytes_eq]
@[simp] theorem State.storeBytes_I (s : State) (a : Nat) (vs : List Byte) :
    (s.storeBytes a vs).I = s.I := by rw [State.storeBytes_eq]
@[simp] theorem State.storeBytes_sp (s : State) (a : Nat) (vs : List Byte) :
    (s.storeBytes a vs).sp = s.sp := by rw [State.storeBytes_eq]
@[simp] theorem State.storeBytes_stack (s : State) (a : Nat) (vs : List Byte) :
    (s.storeBytes a vs).stack = s.stack := by rw [State.storeBytes_eq]
@[simp] theorem State.storeBytes_DT (s : State) (a : Nat) (vs : List Byte) :
    (s.storeBytes a vs).DT = s.DT := by rw [State.storeBytes_eq]
@[simp] theorem State.storeBytes_ST (s : State) (a : Nat) (vs : List Byte) :
    (s.storeBytes a vs).ST = s.ST := by rw [State.storeBytes_eq]
@[simp] theorem State.storeBytes_fault (s : State) (a : Nat) (vs : List Byte) :
    (s.storeBytes a vs).fault = s.fault := by rw [State.storeBytes_eq]
@[simp] theorem State.storeBytes_faultCode (s : State) (a : Nat) (vs : List Byte) :
    (s.storeBytes a vs).faultCode = s.faultCode := by rw [State.storeBytes_eq]
@[simp] theorem State.storeBytes_faultInfo (s : State) (a : Nat) (vs : List Byte) :
    (s.storeBytes a vs).faultInfo = s.faultInfo := by rw [State.storeBytes_eq]
@[simp] theorem State.storeBytes_disp (s : State) (a : Nat) (vs : List Byte) :
    (s.storeBytes a vs).disp = s.disp := by rw [State.storeBytes_eq]
@[simp] theorem State.storeBytes_key (s : State) (a : Nat) (vs : List Byte) :
    (s.storeBytes a vs).key = s.key := by rw [State.storeBytes_eq]
@[simp] theorem State.storeBytes_instr (s : State) (a : Nat) (vs : List Byte) :
    (s.storeBytes a vs).instr = s.instr := by rw [State.storeBytes_eq]
@[simp] theorem State.storeBytes_tone (s : State) (a : Nat) (vs : List Byte) :
    (s.storeBytes a vs).tone = s.tone := by rw [State.storeBytes_eq]
@[simp] theorem State.storeBytes_unknown (s : State) (a : Nat) (vs : List Byte) :
    (s.storeBytes a vs).unknown = s.unknown := by rw [State.storeBytes_eq]
@[simp] theorem State.storeBytes_loadError (s : State) (a : Nat) (vs : List Byte) :
    (s.storeBytes a vs).loadError = s.loadError := by rw [State.storeBytes_eq]
@[simp] theorem State.storeBytes_keysIn (s : State) (a : Nat) (vs : List Byte) :
    (s.storeBytes a vs).keysIn = s.keysIn := by rw [State.storeBytes_eq]
@[simp] theorem State.storeBytes_started (s : State) (a : Nat) (vs : List Byte) :
    (s.storeBytes a vs).started = s.started := by rw [State.storeBytes_eq]
@[simp] theorem State.storeBytes_draws (s : State) (a : Nat) (vs : List Byte) :
    (s.storeBytes a vs).draws = s.draws := by rw [State.storeBytes_eq]
@[simp] theorem State.storeBytes_cfg (s : State) (a : Nat) (vs : List Byte) :
    (s.storeBytes a vs).cfg = s.cfg := by rw [State.storeBytes_eq]
@[simp] theorem State.reg_storeBytes (s : State) (a : Nat) (vs : List Byte) (q : Reg) :
    (s.storeBytes a vs).reg q = s.reg q := by simp [State.reg]

end Sys2Proof.Machine
end

