-- ==== Sys2Proof/Laws/Ops.lean ====
section
/-! SUPPORT. One lemma for each shared operation that says everything it can do. -/

namespace Sys2Proof.Machine

/-! ### The range check -/

theorem State.guardAccess_inside (s t : State) (n : Nat) (h : ¬ (0 < n ∧ s.I.toNat + n - 1 > lastAddr)) :
    s.guardAccess n t = t := if_neg h

theorem State.guardAccess_outside (s t : State) (n : Nat) (h : 0 < n ∧ s.I.toNat + n - 1 > lastAddr) :
    s.guardAccess n t = s.raise .memoryOutOfRange (BitVec.ofNat 16 (max s.I.toNat 0x1000)) := if_pos h

/-- The range check answers its state, or the fault on the state it checks. -/
theorem State.guardAccess_cases (s t : State) (n : Nat) :
    (¬ (0 < n ∧ s.I.toNat + n - 1 > lastAddr) ∧ s.guardAccess n t = t) ∨
    ((0 < n ∧ s.I.toNat + n - 1 > lastAddr) ∧
      s.guardAccess n t = s.raise .memoryOutOfRange (BitVec.ofNat 16 (max s.I.toNat 0x1000))) := by
  by_cases h : 0 < n ∧ s.I.toNat + n - 1 > lastAddr
  · exact .inr ⟨h, s.guardAccess_outside t n h⟩
  · exact .inl ⟨h, s.guardAccess_inside t n h⟩

/-! ### The call stack -/

theorem State.pushPc_of_lt (s : State) (h : s.sp.val < 16) :
    s.pushPc = some { s with stack := s.stack.set s.sp.val s.pc, sp := ⟨s.sp.val + 1, by omega⟩ } := dif_pos h

theorem State.pushPc_full (s : State) (h : s.sp = 16) : s.pushPc = none := by
  simp [State.pushPc, h]

theorem State.pushPc_cases (s : State) :
    (∃ h : s.sp.val < 16, s.pushPc =
      some { s with stack := s.stack.set s.sp.val s.pc, sp := ⟨s.sp.val + 1, by omega⟩ }) ∨
    (s.sp = 16 ∧ s.pushPc = none) := by
  by_cases h : s.sp.val < 16
  · exact .inl ⟨h, s.pushPc_of_lt h⟩
  · have : s.sp = 16 := Fin.ext (by have := s.sp.isLt; simp; omega)
    exact .inr ⟨this, s.pushPc_full this⟩

theorem State.popPc_of_pos (s : State) (h : 0 < s.sp.val) :
    s.popPc = some { s with pc := s.stack[s.sp.val - 1], sp := ⟨s.sp.val - 1, by omega⟩ } := dif_pos h

theorem State.popPc_empty (s : State) (h : s.sp = 0) : s.popPc = none := by
  simp [State.popPc, h]

theorem State.popPc_cases (s : State) :
    (∃ h : 0 < s.sp.val, s.popPc =
      some { s with pc := s.stack[s.sp.val - 1], sp := ⟨s.sp.val - 1, by omega⟩ }) ∨
    (s.sp = 0 ∧ s.popPc = none) := by
  by_cases h : 0 < s.sp.val
  · exact .inl ⟨h, s.popPc_of_pos h⟩
  · have : s.sp = 0 := Fin.ext (by simp; omega)
    exact .inr ⟨this, s.popPc_empty this⟩

/-! ### Skips and keys -/

/-- A skip changes `pc` only, by 2 or not at all. -/
theorem State.skipIf_cases (s : State) (b : Bool) : s.skipIf b = s ∨ s.skipIf b = s.setPc (s.pc + 2) := by
  cases b
  · exact .inl rfl
  · exact .inr rfl

theorem State.keyPressed?_cases (s : State) (x : Reg) :
    ((s.reg x).toNat ≤ 15 ∧ s.keyPressed? x = some (s.key.getLsbD (s.reg x).toNat)) ∨
    ((s.reg x).toNat > 15 ∧ s.keyPressed? x = none) := by
  unfold State.keyPressed?
  split <;> simp <;> omega

@[simp] theorem State.mem_heldKeys (s : State) (k : Reg) : k ∈ s.heldKeys ↔ s.key.getLsbD k.val = true := by
  simp [State.heldKeys]

/-- The chosen key is one of the held ones. -/
theorem State.chooseKey_mem (s : State) (k : Reg) (ks : List Reg) : s.chooseKey k ks ∈ k :: ks := by
  have hi : Config.freeIndex s.draws % (ks.length + 1) < (k :: ks).length := by
    simpa using Nat.mod_lt _ (Nat.succ_pos _)
  unfold State.chooseKey
  cases s.cfg.keyChoice with
  | any =>
    simp only
    split
    · simp
    · rw [List.getD_eq_getElem _ _ hi]; exact List.getElem_mem hi
  | lowest => simp
  | highest =>
    cases h : ks.getLast? with
    | none => simp [List.getLastD_eq_getLast?, h]
    | some v => simp [List.getLastD_eq_getLast?, h, List.mem_of_getLast? h]

/-! ### Operands -/

theorem State.shiftOperand_vx (s : State) (x y : Reg) (h : s.cfg.shiftSource = .vx) : s.shiftOperand x y = s.reg x := by
  simp [State.shiftOperand, h]

theorem State.shiftOperand_vy (s : State) (x y : Reg) (h : s.cfg.shiftSource = .vy) : s.shiftOperand x y = s.reg y := by
  simp [State.shiftOperand, h]

theorem glyphAddr_toNat (v : Byte) : (glyphAddr v).toNat = 0x50 + 5 * (v.toNat % 16) := by
  simp [glyphAddr, fontBase]; omega

@[simp] theorem State.regsUpTo_length (s : State) (x : Reg) : (s.regsUpTo x).length = x.val + 1 := by
  simp [State.regsUpTo]

theorem State.regsUpTo_getElem (s : State) (x r : Reg) (h : r.val < (s.regsUpTo x).length) :
    (s.regsUpTo x)[r.val] = s.reg r := by
  simp [State.regsUpTo, State.reg]

@[simp] theorem State.readBytes_length (s : State) (a n : Nat) : (s.readBytes a n).length = n := by
  simp [State.readBytes]

theorem State.readBytes_getD (s : State) (a n k : Nat) (h : k < n) : (s.readBytes a n).getD k 0 = s.readByte (a + k) := by
  simp [State.readBytes, h]

/-- A sprite toggles the cells under its 1 bits, from the wrapped origin. -/
theorem State.drawAt_cell (s : State) (vx vy : Byte) (rows : List Byte) (y x : Nat) :
    (s.drawAt vx vy rows).disp.cell y x =
      (s.disp.cell y x ^^ spriteBit rows (vy.toNat % 32) (vx.toNat % 64) y x) := by
  simp [drawSprite_cell]

/-! ### Timers and the end of a cycle -/

theorem decTimer_toNat (t : Byte) : (decTimer t).toNat = t.toNat - 1 := by
  unfold decTimer
  split
  · next h =>
    have := t.isLt
    rw [BitVec.toNat_sub]; simp; omega
  · omega

theorem State.commit_of_running (s t : State) (h : t.fault = false) : s.commit t = t.timerStage := by
  simp [State.commit, h]

theorem State.commit_of_fault (s t : State) (h : t.fault = true) :
    s.commit t = s.latchFault t.faultCode t.faultInfo := by
  simp [State.commit, h]

/-- The word at `pc`, or no word beyond 0xFFE. -/
theorem State.fetchWord_cases (s : State) :
    (s.pc.toNat ≤ 0xFFE ∧
      s.fetchWord = some (wordOfBytes (s.readByte s.pc.toNat) (s.readByte (s.pc.toNat + 1)))) ∨
    (s.pc.toNat > 0xFFE ∧ s.fetchWord = none) := by
  unfold State.fetchWord
  split
  · next h => exact .inr ⟨h, rfl⟩
  · next h => exact .inl ⟨by omega, rfl⟩

end Sys2Proof.Machine
end

