-- ==== Sys2Proof/Laws/PerInstr.lean ====
section
/-! SUPPORT. Per instruction: its word carries its row's fixed bits (30_encoding R65, columns match and mask). -/

namespace Sys2Proof.Laws.RowBits

/-- The word of `i`, masked, is its row's match. -/
def Statement (i : Instr) : Prop := encode i &&& opMask i = opMatch i

theorem cls : Statement (.cls) := rfl

theorem ret : Statement (.ret) := rfl

theorem jp (nnn : Addr12) : Statement (.jp nnn) := by
  rw [Statement, opMask, opMatch, and_F000, encode, opField_wordA]; decide

theorem call (nnn : Addr12) : Statement (.call nnn) := by
  rw [Statement, opMask, opMatch, and_F000, encode, opField_wordA]; decide

theorem seImm (x : Reg) (nn : Byte) : Statement (.seImm x nn) := by
  rw [Statement, opMask, opMatch, and_F000, encode, opField_wordXI]; decide

theorem sneImm (x : Reg) (nn : Byte) : Statement (.sneImm x nn) := by
  rw [Statement, opMask, opMatch, and_F000, encode, opField_wordXI]; decide

theorem seReg (x y : Reg) (n : Nibble) : Statement (.seReg x y n) := by
  rw [Statement, opMask, opMatch, and_F000, encode, opField_wordXYN]; decide

theorem ldImm (x : Reg) (nn : Byte) : Statement (.ldImm x nn) := by
  rw [Statement, opMask, opMatch, and_F000, encode, opField_wordXI]; decide

theorem addImm (x : Reg) (nn : Byte) : Statement (.addImm x nn) := by
  rw [Statement, opMask, opMatch, and_F000, encode, opField_wordXI]; decide

theorem ldReg (x y : Reg) : Statement (.ldReg x y) := by
  rw [Statement, opMask, opMatch, and_F00F, encode, opField_wordXYN, nField_wordXYN]; decide

theorem orReg (x y : Reg) : Statement (.orReg x y) := by
  rw [Statement, opMask, opMatch, and_F00F, encode, opField_wordXYN, nField_wordXYN]; decide

theorem andReg (x y : Reg) : Statement (.andReg x y) := by
  rw [Statement, opMask, opMatch, and_F00F, encode, opField_wordXYN, nField_wordXYN]; decide

theorem xorReg (x y : Reg) : Statement (.xorReg x y) := by
  rw [Statement, opMask, opMatch, and_F00F, encode, opField_wordXYN, nField_wordXYN]; decide

theorem addReg (x y : Reg) : Statement (.addReg x y) := by
  rw [Statement, opMask, opMatch, and_F00F, encode, opField_wordXYN, nField_wordXYN]; decide

theorem subReg (x y : Reg) : Statement (.subReg x y) := by
  rw [Statement, opMask, opMatch, and_F00F, encode, opField_wordXYN, nField_wordXYN]; decide

theorem shr (x y : Reg) : Statement (.shr x y) := by
  rw [Statement, opMask, opMatch, and_F00F, encode, opField_wordXYN, nField_wordXYN]; decide

theorem subnReg (x y : Reg) : Statement (.subnReg x y) := by
  rw [Statement, opMask, opMatch, and_F00F, encode, opField_wordXYN, nField_wordXYN]; decide

theorem shl (x y : Reg) : Statement (.shl x y) := by
  rw [Statement, opMask, opMatch, and_F00F, encode, opField_wordXYN, nField_wordXYN]; decide

theorem sneReg (x y : Reg) (n : Nibble) : Statement (.sneReg x y n) := by
  rw [Statement, opMask, opMatch, and_F000, encode, opField_wordXYN]; decide

theorem ldI (nnn : Addr12) : Statement (.ldI nnn) := by
  rw [Statement, opMask, opMatch, and_F000, encode, opField_wordA]; decide

theorem jpV0 (nnn : Addr12) : Statement (.jpV0 nnn) := by
  rw [Statement, opMask, opMatch, and_F000, encode, opField_wordA]; decide

theorem rnd (x : Reg) (nn : Byte) : Statement (.rnd x nn) := by
  rw [Statement, opMask, opMatch, and_F000, encode, opField_wordXI]; decide

theorem drw (x y : Reg) (n : Nibble) : Statement (.drw x y n) := by
  rw [Statement, opMask, opMatch, and_F000, encode, opField_wordXYN]; decide

theorem skp (x : Reg) : Statement (.skp x) := by
  rw [Statement, opMask, opMatch, and_F0FF, encode, opField_wordXI, nnField_wordXI]; decide

theorem sknp (x : Reg) : Statement (.sknp x) := by
  rw [Statement, opMask, opMatch, and_F0FF, encode, opField_wordXI, nnField_wordXI]; decide

theorem ldVxDT (x : Reg) : Statement (.ldVxDT x) := by
  rw [Statement, opMask, opMatch, and_F0FF, encode, opField_wordXI, nnField_wordXI]; decide

theorem ldVxK (x : Reg) : Statement (.ldVxK x) := by
  rw [Statement, opMask, opMatch, and_F0FF, encode, opField_wordXI, nnField_wordXI]; decide

theorem ldDTVx (x : Reg) : Statement (.ldDTVx x) := by
  rw [Statement, opMask, opMatch, and_F0FF, encode, opField_wordXI, nnField_wordXI]; decide

theorem ldSTVx (x : Reg) : Statement (.ldSTVx x) := by
  rw [Statement, opMask, opMatch, and_F0FF, encode, opField_wordXI, nnField_wordXI]; decide

theorem addI (x : Reg) : Statement (.addI x) := by
  rw [Statement, opMask, opMatch, and_F0FF, encode, opField_wordXI, nnField_wordXI]; decide

theorem ldF (x : Reg) : Statement (.ldF x) := by
  rw [Statement, opMask, opMatch, and_F0FF, encode, opField_wordXI, nnField_wordXI]; decide

theorem ldB (x : Reg) : Statement (.ldB x) := by
  rw [Statement, opMask, opMatch, and_F0FF, encode, opField_wordXI, nnField_wordXI]; decide

theorem storeRegs (x : Reg) : Statement (.storeRegs x) := by
  rw [Statement, opMask, opMatch, and_F0FF, encode, opField_wordXI, nnField_wordXI]; decide

theorem loadRegs (x : Reg) : Statement (.loadRegs x) := by
  rw [Statement, opMask, opMatch, and_F0FF, encode, opField_wordXI, nnField_wordXI]; decide

end Sys2Proof.Laws.RowBits
end

