-- ==== Sys2Proof/Laws/Step.lean ====
section
/-! SUPPORT. Everything a step can do, said once. -/

namespace Sys2Proof.Machine

/-- A step that answers a next state: a halted core unchanged, a fetch fault, an instruction, or an unknown word. -/
theorem step_cases (s t : State) (h : step s = .next t) :
    (s.fault = true ∧ t = s) ∨
    (s.Running ∧ s.pc.toNat > 0xFFE ∧ t = s.raise .fetchOutOfRange s.pc) ∨
    (s.Running ∧ s.pc.toNat ≤ 0xFFE ∧ ∃ w i u, s.fetchWord = some w ∧ decode s.cfg w = .ok i ∧
      exec i (s.beginExecute w) = .next u ∧ t = s.commit u) ∨
    (s.Running ∧ s.pc.toNat ≤ 0xFFE ∧ ∃ w e, s.fetchWord = some w ∧ decode s.cfg w = .error e ∧
      t = s.commit ((s.beginExecute w).reportUnknown w)) := by
  unfold step at h
  split at h
  · next hf => exact .inl ⟨hf, by cases h; rfl⟩
  · next hf =>
    split at h
    · cases h
    · next hl =>
      have hr : s.Running := ⟨by simpa using hf, by simpa using hl⟩
      rcases s.fetchWord_cases with ⟨hpc, hw⟩ | ⟨hpc, hw⟩
      · simp only [hw] at h
        cases hd : decode s.cfg (wordOfBytes (s.readByte s.pc.toNat) (s.readByte (s.pc.toNat + 1))) with
        | ok i =>
          simp only [hd] at h
          cases he : exec i (s.beginExecute (wordOfBytes (s.readByte s.pc.toNat) (s.readByte (s.pc.toNat + 1)))) with
          | next u =>
            simp only [he, finishCycle, Host.Outcome.next.injEq] at h
            exact .inr (.inr (.inl ⟨hr, hpc, _, i, u, hw, hd, he, h.symm⟩))
          | fault r => simp [he, finishCycle] at h
          | refused r => simp [he, finishCycle] at h
        | error e =>
          simp only [hd, finishCycle, Host.Outcome.next.injEq] at h
          exact .inr (.inr (.inr ⟨hr, hpc, _, e, hw, hd, h.symm⟩))
      · simp only [hw, Host.Outcome.next.injEq] at h
        exact .inr (.inl ⟨hr, hpc, h.symm⟩)

/-- The step of a running core on a word that is an instruction. -/
theorem step_instr (s : State) (w : Word) (i : Instr) (hr : s.Running) (hw : s.fetchWord = some w)
    (hd : decode s.cfg w = .ok i) : step s = finishCycle s (exec i (s.beginExecute w)) := by
  simp [step, hr.1, hr.2, hw, hd]

/-- The step of a running core on an unknown word. -/
theorem step_unknown (s : State) (w : Word) (e : NotAnInstr) (hr : s.Running) (hw : s.fetchWord = some w)
    (hd : decode s.cfg w = .error e) : step s = .next ((s.beginExecute w).reportUnknown w).timerStage := by
  simp [step, hr.1, hr.2, hw, hd, finishCycle, State.commit]

/-- The step of a running core with `pc` beyond 0xFFE. -/
theorem step_fetchFault (s : State) (hr : s.Running) (h : s.pc.toNat > 0xFFE) :
    step s = .next (s.raise .fetchOutOfRange s.pc) := by
  simp [step, hr.1, hr.2, State.fetchWord, h]

/-- A halted core does not change. -/
theorem step_halted (s : State) (h : s.fault = true) : step s = .next s := by
  simp [step, h]

end Sys2Proof.Machine
end

