-- ==== Sys2Proof/Tests/Slice0.lean ====
section
/-! SUPPORT. The model's own tests. Expected values are the vectors and worked examples of spec/95_test_vectors.md, and
words written out from the encodings of 30_encoding R61 and R65; none is the model's own answer. The witnesses at the
end meet the hypotheses of the statements in Certificates/Slice0/Obligations.lean. -/

open Sys2Proof Sys2Proof.Machine

namespace Sys2Proof.Tests

/-! ### Helpers -/

/-- The reset state with a word at 0x200, the start state of 95_test_vectors. -/
def start (w : Word) : State := State.reset.withFetchWord 16 w.toNat

/-- The same with other parameters. -/
def startWith (c : Config) (w : Word) : State := (State.resetWith c).withFetchWord 16 w.toNat

/-- One cycle answers a next state of which `p` is true. -/
def after (s : State) (p : State → Bool) : Bool :=
  match step s with
  | .next t => p t
  | _ => false

/-- One host load is accepted and answers a state of which `p` is true. -/
def loaded (s : State) (image : List Byte) (p : State → Bool) : Bool :=
  match s.hostLoad image with
  | .next t => p t
  | _ => false

/-- The halted state as the vectors name it: the latch, with `pc` frozen at 0x200. -/
def halted (code : BitVec 3) (info : Word) (t : State) : Bool :=
  t.fault && t.faultCode == code && t.faultInfo == info && t.pc == 0x200

/-- A parameter set: shifts read the second register. -/
def shiftVy : Config := { Config.standard with shiftSource := .vy }

/-- A parameter set: family 0xC holds no instruction. -/
def rndUnknown : Config := { Config.standard with rndMode := .unknown }

/-- Parameter sets: the lowest, or the highest, held key is latched. -/
def keyLowest : Config := { Config.standard with keyChoice := .lowest }

/-- See `keyLowest`. -/
def keyHighest : Config := { Config.standard with keyChoice := .highest }

/-- The state with one display cell turned on. -/
def lit (s : State) (y x : Nat) : State := s.setDisp (toggleCell (s.disp, false) y x).1

/-- The columns that are on in row y. -/
def row (t : State) (y : Nat) : List Nat := (List.range 64).filter (fun x => t.disp.cell y x)

/-- The state with `sp` call-stack entries. -/
def withSp (s : State) (sp : Fin 17) : State := { s with sp := sp }

/-- Registers 0 to 15 hold 0x10 to 0x1F (V-MEM-12). -/
def rising (s : State) : State := s.setRegs (Vector.ofFn fun r => BitVec.ofNat 8 (0x10 + r.val))

/-! ### WellFormed: what the checks accept and refuse -/

theorem test_wellFormed_refuses_rnd_when_unknown : (Instr.rnd 1 0x0F).wellFormed rndUnknown = false := by decide
theorem test_wellFormed_accepts_rnd_by_default : (Instr.rnd 1 0x0F).wellFormed Config.standard = true := by decide
theorem test_wellFormed_accepts_others_when_unknown : (Instr.drw 1 2 3).wellFormed rndUnknown = true := by decide
theorem test_canonical_refuses_se_alias : (Instr.seReg 1 2 7).canonical = false := by decide
theorem test_canonical_refuses_sne_alias : (Instr.sneReg 1 2 1).canonical = false := by decide
theorem test_canonical_accepts_se : (Instr.seReg 1 2 0).canonical = true := by decide

/-! ### Decoding: every constructor by a word written out bit by bit from R61 and R65 -/

theorem test_decode_cls : decodeTableWord 16 0b0000000011100000 = some (.cls) := by decide
theorem test_decode_ret : decodeTableWord 16 0b0000000011101110 = some (.ret) := by decide
theorem test_decode_jp : decodeTableWord 16 0b0001101010111100 = some (.jp 0xABC) := by decide
theorem test_decode_call : decodeTableWord 16 0b0010001000000100 = some (.call 0x204) := by decide
theorem test_decode_seImm : decodeTableWord 16 0b0011001100101010 = some (.seImm 3 0x2A) := by decide
theorem test_decode_sneImm : decodeTableWord 16 0b0100001100101011 = some (.sneImm 3 0x2B) := by decide
theorem test_decode_seReg : decodeTableWord 16 0b0101000100100000 = some (.seReg 1 2 0) := by decide
theorem test_decode_seReg_alias : decodeTableWord 16 0b0101000100100111 = some (.seReg 1 2 7) := by decide
theorem test_decode_ldImm : decodeTableWord 16 0b0110000000001010 = some (.ldImm 0 0x0A) := by decide
theorem test_decode_addImm : decodeTableWord 16 0b0111111100000010 = some (.addImm 15 0x02) := by decide
theorem test_decode_ldReg : decodeTableWord 16 0b1000000100100000 = some (.ldReg 1 2) := by decide
theorem test_decode_orReg : decodeTableWord 16 0b1000000100100001 = some (.orReg 1 2) := by decide
theorem test_decode_andReg : decodeTableWord 16 0b1000000100100010 = some (.andReg 1 2) := by decide
theorem test_decode_xorReg : decodeTableWord 16 0b1000000100100011 = some (.xorReg 1 2) := by decide
theorem test_decode_addReg : decodeTableWord 16 0b1000000100100100 = some (.addReg 1 2) := by decide
theorem test_decode_subReg : decodeTableWord 16 0b1000000100100101 = some (.subReg 1 2) := by decide
theorem test_decode_shr : decodeTableWord 16 0b1000000100100110 = some (.shr 1 2) := by decide
theorem test_decode_subnReg : decodeTableWord 16 0b1000000100100111 = some (.subnReg 1 2) := by decide
theorem test_decode_shl : decodeTableWord 16 0b1000000100101110 = some (.shl 1 2) := by decide
theorem test_decode_sneReg : decodeTableWord 16 0b1001000100100000 = some (.sneReg 1 2 0) := by decide
theorem test_decode_sneReg_alias : decodeTableWord 16 0b1001000100101111 = some (.sneReg 1 2 15) := by decide
theorem test_decode_ldI : decodeTableWord 16 0b1010001011110000 = some (.ldI 0x2F0) := by decide
theorem test_decode_jpV0 : decodeTableWord 16 0b1011001100000000 = some (.jpV0 0x300) := by decide
theorem test_decode_rnd : decodeTableWord 16 0b1100000100001111 = some (.rnd 1 0x0F) := by decide
theorem test_decode_drw : decodeTableWord 16 0b1101000000010101 = some (.drw 0 1 5) := by decide
theorem test_decode_skp : decodeTableWord 16 0b1110010110011110 = some (.skp 5) := by decide
theorem test_decode_sknp : decodeTableWord 16 0b1110010110100001 = some (.sknp 5) := by decide
theorem test_decode_ldVxDT : decodeTableWord 16 0b1111001100000111 = some (.ldVxDT 3) := by decide
theorem test_decode_ldVxK : decodeTableWord 16 0b1111000000001010 = some (.ldVxK 0) := by decide
theorem test_decode_ldDTVx : decodeTableWord 16 0b1111001000010101 = some (.ldDTVx 2) := by decide
theorem test_decode_ldSTVx : decodeTableWord 16 0b1111001000011000 = some (.ldSTVx 2) := by decide
theorem test_decode_addI : decodeTableWord 16 0b1111001000011110 = some (.addI 2) := by decide
theorem test_decode_ldF : decodeTableWord 16 0b1111001100101001 = some (.ldF 3) := by decide
theorem test_decode_ldB : decodeTableWord 16 0b1111010000110011 = some (.ldB 4) := by decide
theorem test_decode_storeRegs : decodeTableWord 16 0b1111111101010101 = some (.storeRegs 15) := by decide
theorem test_decode_loadRegs : decodeTableWord 16 0b1111001001100101 = some (.loadRegs 2) := by decide

theorem test_decode_refuses_family0_alias : decode Config.standard 0x01E0 = .error .unknownFamily0 := by decide
theorem test_decode_refuses_zero : decode Config.standard 0x0000 = .error .unknownFamily0 := by decide
theorem test_decode_refuses_family8 : decode Config.standard 0x8128 = .error .unknownFamily8 := by decide
theorem test_decode_refuses_familyE : decode Config.standard 0xE19F = .error .unknownFamilyE := by decide
theorem test_decode_refuses_familyF : decode Config.standard 0xF1FF = .error .unknownFamilyF := by decide
theorem test_decode_refuses_familyC : decode rndUnknown 0xC10F = .error .unknownFamilyC := by decide
theorem test_decode_refuses_one_byte : decodeBytes Config.standard [0x12] = .error .truncated := by decide
theorem test_encode_is_big_endian : encodeBytes (.call 0x204) = [0x22, 0x04] := by decide

/-! ### Instructions: one or two vectors of 95_test_vectors each, one cycle unless said -/

/-- V-CLS-1, on one lit cell. -/
theorem test_cls : after ((lit (start 0x00E0) 31 63).setReg VF 1)
    (fun t => row t 31 == [] && t.reg VF == 1) = true := by decide
/-- V-CF-6. -/
theorem test_ret : after { withSp (start 0x00EE) 2 with stack := (State.reset.stack.set 0 0x0111).set 1 0x0ABC }
    (fun t => t.sp == 1 && t.pc == 0x0ABC && t.stack[1] == 0x0ABC) = true := by decide
/-- V-CF-7 and V-TMR-13. -/
theorem test_ret_underflow : after ({ start 0x00EE with DT := 5, ST := 1 })
    (fun t => halted 4 0 t && t.sp == 0 && t.DT == 5 && t.ST == 1 && !t.tone) = true := by decide
/-- V-CF-1. -/
theorem test_jp : after (start 0x1ABC) (fun t => t.pc == 0x0ABC) = true := by decide
/-- V-CF-4. -/
theorem test_call_sixteenth : after (withSp (start 0x2ABC) 15)
    (fun t => t.stack[15] == 0x0202 && t.sp == 16 && t.pc == 0x0ABC && !t.fault) = true := by decide
/-- V-CF-5. -/
theorem test_call_overflow : after (withSp (start 0x2ABC) 16)
    (fun t => halted 3 0x0010 t && t.sp == 16 && t.stack == State.reset.stack) = true := by decide
/-- V-CF-9. -/
theorem test_seImm_skips : after ((start 0x3142).setReg 1 0x42) (fun t => t.pc == 0x0204) = true := by decide
/-- V-CF-10. -/
theorem test_seImm_falls : after ((start 0x3142).setReg 1 0x43) (fun t => t.pc == 0x0202) = true := by decide
/-- V-CF-11. -/
theorem test_sneImm_skips : after ((start 0x4142).setReg 1 0x43) (fun t => t.pc == 0x0204) = true := by decide
/-- V-CF-12. -/
theorem test_sneImm_falls : after ((start 0x4142).setReg 1 0x42) (fun t => t.pc == 0x0202) = true := by decide
/-- V-CF-14. -/
theorem test_seReg_falls : after (((start 0x5120).setReg 1 7).setReg 2 8) (fun t => t.pc == 0x0202) = true := by decide
/-- V-CF-15. -/
theorem test_seReg_alias_skips : after (((start 0x5127).setReg 1 7).setReg 2 7)
    (fun t => t.pc == 0x0204 && t.unknown == none) = true := by decide
/-- V-CF-16. -/
theorem test_sneReg_skips : after (((start 0x9120).setReg 1 7).setReg 2 8) (fun t => t.pc == 0x0204) = true := by decide
/-- V-CF-17. -/
theorem test_sneReg_falls : after (((start 0x9120).setReg 1 7).setReg 2 7) (fun t => t.pc == 0x0202) = true := by decide
/-- V-ALU-2. -/
theorem test_ldImm_VF : after ((start 0x6F07).setReg VF 1) (fun t => t.reg VF == 0x07) = true := by decide
/-- V-ALU-3. -/
theorem test_addImm_wraps : after (((start 0x7301).setReg 3 0xFF).setReg VF 0x55)
    (fun t => t.reg 3 == 0x00 && t.reg VF == 0x55) = true := by decide
/-- V-ALU-5. -/
theorem test_ldReg : after ((start 0x8120).setReg 2 0xAB) (fun t => t.reg 1 == 0xAB && t.reg 2 == 0xAB) = true := by
  decide
/-- V-ALU-6. -/
theorem test_orReg : after ((((start 0x8121).setReg 1 0xF0).setReg 2 0x0F).setReg VF 7)
    (fun t => t.reg 1 == 0xFF && t.reg VF == 0x07) = true := by decide
/-- V-ALU-7. -/
theorem test_andReg : after ((((start 0x8122).setReg 1 0xFC).setReg 2 0x3F).setReg VF 7)
    (fun t => t.reg 1 == 0x3C && t.reg VF == 0x07) = true := by decide
/-- V-ALU-8. -/
theorem test_xorReg : after ((((start 0x8123).setReg 1 0xFF).setReg 2 0x0F).setReg VF 7)
    (fun t => t.reg 1 == 0xF0 && t.reg VF == 0x07) = true := by decide
/-- V-ALU-10. -/
theorem test_addReg_carry : after (((start 0x8124).setReg 1 0xC8).setReg 2 0x64)
    (fun t => t.reg 1 == 0x2C && t.reg VF == 1) = true := by decide
/-- V-ALU-14. -/
theorem test_addReg_flag_wins : after (((start 0x8F24).setReg VF 0xF0).setReg 2 0x20)
    (fun t => t.reg VF == 0x01) = true := by decide
/-- V-ALU-20. -/
theorem test_subReg_equal : after ((((start 0x8125).setReg 1 0x33).setReg 2 0x33))
    (fun t => t.reg 1 == 0x00 && t.reg VF == 1) = true := by decide
/-- V-ALU-22. -/
theorem test_subReg_old_VF : after (((start 0x81F5).setReg 1 0x05).setReg VF 0x09)
    (fun t => t.reg 1 == 0xFC && t.reg VF == 0) = true := by decide
/-- V-ALU-26. -/
theorem test_shr_vx : after (((start 0x8126).setReg 1 0x05).setReg 2 0xFF)
    (fun t => t.reg 1 == 0x02 && t.reg 2 == 0xFF && t.reg VF == 1) = true := by decide
/-- V-ALU-27. -/
theorem test_shr_vy : after (((startWith shiftVy 0x8126).setReg 1 0x05).setReg 2 0xFE)
    (fun t => t.reg 1 == 0x7F && t.reg 2 == 0xFE && t.reg VF == 0) = true := by decide
/-- V-ALU-23. -/
theorem test_subnReg : after (((start 0x8127).setReg 1 0x10).setReg 2 0x20)
    (fun t => t.reg 1 == 0x10 && t.reg VF == 1) = true := by decide
/-- V-ALU-24. -/
theorem test_subnReg_borrow : after (((start 0x8127).setReg 1 0x20).setReg 2 0x10)
    (fun t => t.reg 1 == 0xF0 && t.reg VF == 0) = true := by decide
/-- V-ALU-30. -/
theorem test_shl_vx : after (((start 0x812E).setReg 1 0x81).setReg 2 0x01)
    (fun t => t.reg 1 == 0x02 && t.reg VF == 1) = true := by decide
/-- V-ALU-31. -/
theorem test_shl_vy : after (((startWith shiftVy 0x812E).setReg 1 0x81).setReg 2 0x01)
    (fun t => t.reg 1 == 0x02 && t.reg VF == 0) = true := by decide
/-- V-ALU-35: no draw shows through a zero mask. -/
theorem test_rnd_zero_mask : ∃ t, exec (.rnd 1 0x00) (start 0xC100) = .next t ∧ t.reg 1 = 0 :=
  ⟨_, rfl, BitVec.and_zero⟩
/-- V-ALU-37. -/
theorem test_rnd_unknown : after ((startWith rndUnknown 0xC10F).setReg 1 0xFF)
    (fun t => t.reg 1 == 0xFF && t.unknown == some 0xC10F && t.pc == 0x0202) = true := by decide
/-- V-CF-8b. -/
theorem test_jpV0 : after ((start 0xBFFF).setReg 0 0xFF) (fun t => t.pc == 0x10FE) = true := by decide
/-- V-DRW-1. -/
theorem test_drw_glyph : after ((((start 0xD015).setReg 0 10).setReg 1 5).setI 0x50)
    (fun t => t.reg VF == 0 && row t 5 == [10, 11, 12, 13] && row t 6 == [10, 13] && row t 9 == [10, 11, 12, 13] &&
      row t 10 == []) = true := by decide
/-- V-DRW-8, a collision, and V-DRW-10, clipped bits that neither wrap nor collide. -/
theorem test_drw_edges :
    after ((lit (((start 0xD011).setI 0x300).writeByte 0x300 0xC0) 0 1).setReg 0 1)
      (fun t => row t 0 == [2] && t.reg VF == 1) = true ∧
    after ((lit (((start 0xD011).setI 0x300).writeByte 0x300 0xFF) 0 0).setReg 0 62)
      (fun t => row t 0 == [0, 62, 63] && t.reg VF == 0) = true := by decide
/-- V-KEY-5. -/
theorem test_skp : after (((start 0xE59E).setReg 5 0x0F).hostKeys [0x8000]) (fun t => t.pc == 0x0204) = true := by
  decide
/-- V-KEY-6. -/
theorem test_skp_out_of_range : after (((start 0xE59E).setReg 5 0x10).hostKeys [0xFFFF]) (halted 5 0x0010) = true := by
  decide
/-- V-KEY-4. -/
theorem test_sknp_held : after (((start 0xE5A1).setReg 5 0x0A).hostKeys [0x0400]) (fun t => t.pc == 0x0202) = true := by
  decide
/-- V-KEY-3. -/
theorem test_sknp_released : after ((start 0xE5A1).setReg 5 0x0A) (fun t => t.pc == 0x0204) = true := by decide
/-- V-TMR-1. -/
theorem test_ldVxDT : after ((start 0xF307).setDT 0x3C) (fun t => t.reg 3 == 0x3C && t.DT == 0x3B) = true := by decide
/-- V-KEY-8. -/
theorem test_ldVxK_stall : after ((((start 0xF30A).setReg 3 0x99).setDT 3).setST 1)
    (fun t => t.pc == 0x0200 && t.reg 3 == 0x99 && t.DT == 2 && t.ST == 0 && t.tone) = true := by decide
/-- The scenario E8, key 7 alone, and V-KEY-10 under KEY_CHOICE = lowest and highest (D10). -/
theorem test_ldVxK_held :
    after ((start 0xF00A).hostKeys [0x0080]) (fun t => t.reg 0 == 0x07 && t.pc == 0x0202) = true ∧
    after ((startWith keyLowest 0xF30A).hostKeys [0x1008]) (fun t => t.reg 3 == 0x03) = true ∧
    after ((startWith keyHighest 0xF30A).hostKeys [0x1008]) (fun t => t.reg 3 == 0x0C) = true := by decide
/-- V-TMR-6. -/
theorem test_ldDTVx : after ((start 0xF215).setReg 2 0xFF) (fun t => t.DT == 0xFE) = true := by decide
/-- V-TMR-7. -/
theorem test_ldSTVx_one : after ((start 0xF218).setReg 2 1) (fun t => t.ST == 0 && t.tone) = true := by decide
/-- V-TMR-8. -/
theorem test_ldSTVx_zero : after ((start 0xF218).setST 1) (fun t => t.ST == 0 && !t.tone) = true := by decide
/-- V-MEM-2. -/
theorem test_addI_no_flag : after ((((start 0xF21E).setI 0x0FFF).setReg 2 1).setReg VF 7)
    (fun t => t.I == 0x1000 && t.reg VF == 7) = true := by decide
/-- V-MEM-3. -/
theorem test_addI_wraps : after (((start 0xF21E).setI 0xFFFF).setReg 2 1) (fun t => t.I == 0x0000) = true := by decide
/-- V-MEM-5. -/
theorem test_ldF : after ((start 0xF329).setReg 3 0x1A) (fun t => t.I == 0x0082) = true := by decide
/-- V-MEM-1. -/
theorem test_ldI : after (start 0xAFFF) (fun t => t.I == 0x0FFF) = true := by decide
/-- V-MEM-8. -/
theorem test_ldB_last : after (((start 0xF433).setI 0x0FFD).setReg 4 123)
    (fun t => t.readBytes 0xFFD 3 == [1, 2, 3] && !t.fault) = true := by decide
/-- V-MEM-9. -/
theorem test_ldB_outside : after (((start 0xF433).setI 0x0FFE).setReg 4 123)
    (fun t => halted 2 0x1000 t && t.readBytes 0xFFE 2 == [0, 0]) = true := by decide
/-- V-MEM-12. -/
theorem test_storeRegs : after ((rising (start 0xFF55)).setI 0x0400)
    (fun t => t.readByte 0x400 == 0x10 && t.readByte 0x40F == 0x1F && t.readByte 0x3FF == 0 && t.readByte 0x410 == 0 &&
      t.I == 0x0400) = true := by decide
/-- V-MEM-15. -/
theorem test_storeRegs_outside : after ((rising (start 0xFF55)).setI 0x0FF1)
    (fun t => halted 2 0x1000 t && t.readByte 0xFF1 == 0 && t.readByte 0xFFF == 0) = true := by decide
/-- V-MEM-16. -/
theorem test_loadRegs : after ((((start 0xF265).setI 0x0400).setReg 3 0x77).storeBytes 0x400 [0xA0, 0xA1, 0xA2, 0xA3])
    (fun t => t.reg 0 == 0xA0 && t.reg 2 == 0xA2 && t.reg 3 == 0x77 && t.I == 0x0400) = true := by decide
/-- V-MEM-21, the default FONT. -/
theorem test_loadRegs_font : after ((start 0xF465).setI 0x009B)
    (fun t => t.reg 0 == 0xF0 && t.reg 1 == 0x80 && t.reg 2 == 0xF0 && t.reg 3 == 0x80 && t.reg 4 == 0x80) = true := by
  decide

/-! ### Unknown words, fetching, loading, memory -/

/-- V-UNK-1. -/
theorem test_unknown_word : after { start 0x0000 with DT := 5, ST := 1 }
    (fun t => t.pc == 0x0202 && t.unknown == some 0 && t.DT == 4 && t.ST == 0 && t.tone) = true := by decide
/-- V-UNK-2: 0x01E0 is not CLS. -/
theorem test_unknown_is_not_cls : after (lit (start 0x01E0) 3 4)
    (fun t => t.disp.cell 3 4 && t.unknown == some 0x01E0) = true := by decide
/-- V-CF-21. -/
theorem test_fetch_at_last_byte : after ((start 0x0000).setPc 0x0FFF)
    (fun t => t.fault && t.faultCode == 1 && t.faultInfo == 0x0FFF && t.pc == 0x0FFF) = true := by decide
/-- V-CF-20, its second cycle. -/
theorem test_fetch_beyond : after (State.reset.setPc 0x1000)
    (fun t => t.fault && t.faultCode == 1 && t.faultInfo == 0x1000 && t.pc == 0x1000) = true := by decide
/-- V-CF-22: an odd `pc`. -/
theorem test_fetch_odd : after ((State.reset.setPc 0x201).withFetchWord 16 0x6142)
    (fun t => t.reg 1 == 0x42 && t.pc == 0x0203) = true := by decide
/-- 40 R86: a halted core ignores the next step. -/
theorem test_halted_stays : after (Latched (start 0x6001) 4 0) (fun t => halted 4 0 t && t.reg 0 == 0) = true := by decide
/-- V-LD-1. -/
theorem test_load : loaded State.reset [0x12, 0x34, 0x56]
    (fun t => t.readBytes 0x200 4 == [0x12, 0x34, 0x56, 0x00] && !t.loadError && t.pc == 0x200) = true := by decide
/-- V-RST-1, the default FONT and its edges. -/
theorem test_reset_memory : State.reset.readBytes 0x50 5 = [0xF0, 0x90, 0x90, 0x90, 0xF0] ∧
    State.reset.readBytes 0x9B 5 = [0xF0, 0x80, 0xF0, 0x80, 0x80] ∧ State.reset.readByte 0x4F = 0 ∧
    State.reset.readByte 0xA0 = 0 ∧ State.reset.readByte 0xFFF = 0 := by decide
/-- V-RST-4. -/
theorem test_reset_of_a_halted_core : after (start 0x00EE)
    (fun t => !t.hostReset.fault && t.hostReset.pc == 0x200) = true := by decide
/-- Memory keeps one listing: writing the reset value again removes the entry (log entry 10). -/
theorem test_memory_canonical : ((State.reset.writeByte 0x50 1).writeByte 0x50 0xF0).mem = [] := by decide

/-! ### Witnesses: the hypotheses of the statements can be met, each clause at a boundary -/

theorem witness_ResetPutsEveryElementAtItsValue :
    ∀ a ∈ [0x000, 0x04F, 0x0A0, 0xFFF], a ≤ 0xFFF ∧ ¬ (0x050 ≤ a ∧ a ≤ 0x09F) := by decide
theorem witness_StepKeepsTheInvariant : State.reset.Inv ∧ ∃ t, step State.reset = .next t := ⟨by decide, _, rfl⟩
theorem witness_HostActionsKeepTheInvariant :
    State.reset.Inv ∧ ∃ t, State.reset.hostLoad [0x12, 0x34] = .next t := ⟨by decide, _, rfl⟩
theorem witness_LoadCopiesTheImage : State.reset.started = false ∧ State.reset.fault = false ∧
    (List.replicate 3584 (0xAA : Byte)).length ≤ 3584 :=
  ⟨rfl, rfl, le_of_eq List.length_replicate⟩
theorem witness_OversizedLoadIsRefusedAndNotStepped : State.reset.started = false ∧ State.reset.fault = false ∧
    (List.replicate 3585 (0xAA : Byte)).length > 3584 :=
  ⟨rfl, rfl, lt_of_lt_of_eq (Nat.lt_succ_self 3584) List.length_replicate.symm⟩
theorem witness_LoadAfterTheFirstCycleIsRefused : State.reset.Running ∧ ∃ t, step State.reset = .next t :=
  ⟨by decide, _, rfl⟩
theorem witness_DecodeOfEncodeIsTheInstruction :
    (Instr.rnd 15 0xFF).wellFormed Config.standard = true ∧ (Instr.loadRegs 15).wellFormed rndUnknown = true := by decide
theorem witness_EncodeOfDecodeIsTheWord : decode Config.standard 0xFFFF = .error .unknownFamilyF ∧
    decode Config.standard 0xC1FF = .ok (.rnd 1 0xFF) ∧ decode rndUnknown 0xF065 = .ok (.loadRegs 0) := by decide
theorem witness_OpcodeMapRowsSelectByMaskAndMatch : (Instr.cls).wellFormed rndUnknown = true ∧
    (Instr.rnd 0 0).wellFormed Config.standard = true := by decide
theorem witness_UnknownWordsAreExactlyTheFiveClasses : decode rndUnknown 0x0FFF = .error .unknownFamily0 ∧
    decode rndUnknown 0x8FFF = .error .unknownFamily8 ∧ decode rndUnknown 0xE000 = .error .unknownFamilyE ∧
    decode rndUnknown 0xFF66 = .error .unknownFamilyF ∧ decode rndUnknown 0xC000 = .error .unknownFamilyC := by decide
theorem witness_TableWordIsFetchedAndDecodedAsItself : (State.reset.setPc 0xFFE).pc.toNat ≤ 0xFFE := by decide
theorem witness_StepRunsTheDecodedInstruction :
    (start 0x6A42).Running ∧ (start 0x6A42).pc.toNat ≤ 0xFFE ∧
      decode (start 0x6A42).cfg ((start 0x6A42).readByte (start 0x6A42).pc.toNat ++
        (start 0x6A42).readByte ((start 0x6A42).pc.toNat + 1)) = .ok (.ldImm 10 0x42) := by decide
theorem witness_FetchReadsBigEndianOrFaults : (State.reset.setPc 0xFFE).pc.toNat ≤ 0xFFE ∧
    (State.reset.setPc 0xFFF).pc.toNat > 0xFFE ∧ (State.reset.setPc 0xFFF).Running := by decide
theorem witness_UnknownWordIsAReportedNoOp : State.reset.Running ∧ State.reset.pc.toNat ≤ 0xFFE ∧
    State.reset.fetchWord = some 0 ∧ decode State.reset.cfg 0 = .error .unknownFamily0 ∧
    (start 0x6000).fetchWord = some 0x6000 ∧ decode (start 0x6000).cfg 0x6000 = .ok (.ldImm 0 0) ∧
    ∃ t, step (start 0x6000) = .next t := ⟨by decide, by decide, by decide, by decide, by decide, by decide, _, rfl⟩
theorem witness_FaultingCycleCommitsOnlyTheLatch : (start 0x00EE).fault = false ∧
    (∃ t, step (start 0x00EE) = .next t ∧ t.fault = true) ∧ (Latched State.reset 4 0).fault = true :=
  ⟨by decide, ⟨_, rfl, by decide⟩, rfl⟩
theorem witness_ExecuteFaults_accesses :
    AccessLeavesMemory (.drw 0 0 1) (State.reset.setI 0x1000) ∧ AccessLeavesMemory (.ldB 0) (State.reset.setI 0xFFE) ∧
    AccessLeavesMemory (.storeRegs 15) (State.reset.setI 0xFF1) ∧
    AccessLeavesMemory (.loadRegs 0) (State.reset.setI 0x1000) ∧
    ¬ AccessLeavesMemory (.drw 0 0 1) (State.reset.setI 0xFFF) ∧ ¬ AccessLeavesMemory (.drw 0 0 0) (State.reset.setI 0xFFFF) := by
  decide
theorem witness_ExecuteFaults_others : (withSp State.reset 16).sp = 16 ∧ State.reset.sp = 0 ∧
    ((State.reset.setReg 5 16).reg 5).toNat > 15 ∧ State.reset.fault = false ∧
    ∃ t, exec .ret State.reset = .next t ∧ t.fault = true :=
  ⟨by decide, by decide, by decide, rfl, _, rfl, rfl⟩
theorem witness_TimersTickOncePerCycle : (start 0xF215).Running ∧ (start 0xF215).fetchWord = some 0xF215 ∧
    decode (start 0xF215).cfg 0xF215 = .ok (.ldDTVx 2) ∧ (∃ t, step (start 0xF215) = .next t ∧ t.fault = false) ∧
    (start 0xF218).fetchWord = some 0xF218 ∧ decode (start 0xF218).cfg 0xF218 = .ok (.ldSTVx 2) ∧
    (∃ t, step (start 0xF218) = .next t ∧ t.fault = false) ∧ ∃ t, step State.reset = .next t ∧ t.fault = false :=
  ⟨by decide, by decide, by decide, ⟨_, rfl, rfl⟩, by decide, by decide, ⟨_, rfl, rfl⟩, _, rfl, rfl⟩
theorem witness_KeypadIsTheHostsSampleAndNeverWritten : State.reset.Running ∧ State.reset.keysIn = [] ∧
    (∃ t, step State.reset = .next t ∧ t.fault = false) ∧ (State.reset.hostKeys [0x8001]).keysIn = [0x8001] ∧
    ∃ t, step (State.reset.hostKeys [0x8001]) = .next t ∧ t.fault = false :=
  ⟨by decide, rfl, ⟨_, rfl, rfl⟩, rfl, _, rfl, rfl⟩
theorem witness_flag_destinations : (14 : Reg) ≠ VF ∧ (0 : Reg) ≠ VF ∧ (15 : Reg) = VF := by decide
theorem witness_ShiftsMoveOneBitIntoFlag : State.reset.cfg.shiftSource = .vx ∧
    (State.resetWith shiftVy).cfg.shiftSource = .vy := ⟨rfl, rfl⟩
theorem witness_RandomIsAMaskedFreeDraw : State.reset.cfg.rndMode = .maskedDraw ∧
    (State.resetWith rndUnknown).cfg.rndMode = .unknown := ⟨rfl, rfl⟩
theorem witness_FlagIsWrittenLast : (∃ t, exec (.addReg VF 2) State.reset = .next t) ∧
    (∃ t, exec (.subReg VF 2) State.reset = .next t) ∧ (∃ t, exec (.shr VF 2) State.reset = .next t) ∧
    (∃ t, exec (.subnReg VF 2) State.reset = .next t) ∧ (∃ t, exec (.shl VF 2) State.reset = .next t) ∧
    State.reset.cfg.shiftSource = .vx ∧ (State.resetWith shiftVy).cfg.shiftSource = .vy ∧
    (∃ t, exec (.shr VF 2) (State.resetWith shiftVy) = .next t) ∧ ∃ t, exec (.shl VF 2) (State.resetWith shiftVy) = .next t :=
  ⟨⟨_, rfl⟩, ⟨_, rfl⟩, ⟨_, rfl⟩, ⟨_, rfl⟩, ⟨_, rfl⟩, rfl, rfl, ⟨_, rfl⟩, _, rfl⟩
theorem witness_CallPushesOrOverflows : (withSp State.reset 15).sp.val < 16 ∧ (withSp State.reset 16).sp = 16 := by decide
theorem witness_ReturnPopsOrUnderflows : (withSp State.reset 1).sp.val = (0 : Fin 16).val + 1 ∧
    (withSp State.reset 16).sp.val = (15 : Fin 16).val + 1 ∧ State.reset.sp = 0 := by decide
theorem witness_ReturnUndoesCall : (withSp State.reset 15).sp.val < 16 ∧
    ∃ u, exec (.call 0x204) (withSp State.reset 15) = .next u := ⟨by decide, _, rfl⟩
theorem witness_DrawTogglesExactlyTheSpritesCells :
    (State.reset.setI 0xFFFF).I.toNat = 0xFFFF ∧ (0 : Nibble).toNat = 0 ∧
    (State.reset.setI 0xFF1).I.toNat + (15 : Nibble).toNat - 1 ≤ 0xFFF ∧ 0 < (15 : Nibble).toNat ∧
    (State.reset.setI 0xFF2).I.toNat + (15 : Nibble).toNat - 1 > 0xFFF := by decide
theorem witness_draw_cells : SpriteToggles (State.reset.setI 0x50) 0 1 5 4 3 ∧
    ¬ SpriteToggles (State.reset.setI 0x50) 0 1 5 4 4 ∧ (lit (State.reset.setI 0x50) 4 3).disp.cell 4 3 = true ∧
    SpriteToggles (lit (State.reset.setI 0x50) 4 3) 0 1 5 4 3 := by decide
theorem witness_draw_no_cell : ¬ ∃ row col, SpriteToggles State.reset 0 1 0 row col := by
  rintro ⟨row, col, _, _, h, h', _⟩
  have : (0 : Nibble).toNat = 0 := rfl
  omega
theorem witness_DrawingTwiceRestoresTheDisplay : ∃ t u,
    (State.reset.setI 0x50).I.toNat + (5 : Nibble).toNat - 1 ≤ 0xFFF ∧
    exec (.drw 0 1 5) (State.reset.setI 0x50) = .next t ∧ t.reg 0 = (State.reset.setI 0x50).reg 0 ∧
    t.reg 1 = (State.reset.setI 0x50).reg 1 ∧ exec (.drw 0 1 5) t = .next u :=
  ⟨_, _, by decide, rfl, by decide, by decide, rfl⟩
theorem witness_BcdStoresThreeDigits : (State.reset.setI 0xFFD).I.toNat + 2 ≤ 0xFFF ∧
    (State.reset.setI 0xFFE).I.toNat + 2 > 0xFFF := by decide
theorem witness_block_transfers : (State.reset.setI 0xFF0).I.toNat + (15 : Reg).val ≤ 0xFFF ∧
    (State.reset.setI 0xFF1).I.toNat + (15 : Reg).val > 0xFFF ∧ (State.reset.setI 0x1000).I.toNat + (0 : Reg).val > 0xFFF := by
  decide
theorem witness_BlockLoadRestoresStoredRegisters : (State.reset.setI 0xFF0).I.toNat + (15 : Reg).val ≤ 0xFFF ∧
    ∃ t, exec (.storeRegs 15) (State.reset.setI 0xFF0) = .next t := ⟨by decide, _, rfl⟩

/-- FX55 with X = 1, or FX33, at 0x200 with I at the next word. -/
def storesNext (w : Word) : State := (start w).setI 0x202

theorem witness_StoredBytesAreFetchedNext :
    (storesNext 0xF155).Running ∧ (storesNext 0xF155).pc.toNat + 3 ≤ 0xFFF ∧
    (storesNext 0xF155).I.toNat = (storesNext 0xF155).pc.toNat + 2 ∧
    decode (storesNext 0xF155).cfg ((storesNext 0xF155).readByte (storesNext 0xF155).pc.toNat ++
      (storesNext 0xF155).readByte ((storesNext 0xF155).pc.toNat + 1)) = .ok (.storeRegs 1) ∧
    decode (storesNext 0xF433).cfg ((storesNext 0xF433).readByte (storesNext 0xF433).pc.toNat ++
      (storesNext 0xF433).readByte ((storesNext 0xF433).pc.toNat + 1)) = .ok (.ldB 4) ∧
    (∃ t, step (storesNext 0xF155) = .next t ∧ t.fault = false) ∧ ∃ t, step (storesNext 0xF433) = .next t ∧ t.fault = false :=
  ⟨by decide, by decide, by decide, by decide, by decide, ⟨_, rfl, by decide⟩, _, rfl, by decide⟩
theorem witness_KeySkipsTestTheNamedKey : ((State.reset.setReg 5 15).reg 5).toNat = (15 : Fin 16).val ∧
    ((State.reset.setReg 5 16).reg 5).toNat > 15 := by decide
theorem witness_KeyWaitRewindsOrLatchesAHeldKey : (∀ k : Fin 16, State.reset.key.getLsbD k.val = false) ∧
    ({ State.reset with key := 0x8000 }).key.getLsbD (15 : Fin 16).val = true ∧
    ∀ m : Fin 16, ({ State.reset with key := 0x8000 }).key.getLsbD m.val = true → m = 15 := by decide
theorem witness_KeyWaitStallIsAFullCycle : (start 0xF00A).Running ∧
    (start 0xF00A).fetchWord = some (wordXI 0xF 0 0x0A) ∧ (start 0xF00A).sampleKeys.key = 0 := by decide
theorem witness_frames : (∃ t, exec (.storeRegs 15) (State.reset.setI 0xFF0) = .next t) ∧
    ¬ StoresTo (.storeRegs 15) (State.reset.setI 0xFF0) 0xFEF ∧ ¬ MayWriteReg (.addReg 1 2) 3 ∧
    ¬ MayWriteCell (.drw 0 1 5) State.reset 5 0 ∧ ¬ MayWritePc (.drw 0 1 5) :=
  ⟨⟨_, rfl⟩, fun h => absurd h.2.1 (by decide), by simp [MayWriteReg, VF], fun h => absurd h.2.1 (by decide), id⟩
theorem witness_SpecialRegistersHaveTheirOwnWriters : (∃ t, exec .cls State.reset = .next t) ∧
    (∀ nnn, Instr.cls ≠ .ldI nnn) ∧ (∀ nnn, Instr.cls ≠ .call nnn) ∧ Instr.cls ≠ .ret ∧ ∀ x, Instr.cls ≠ .ldDTVx x :=
  ⟨⟨_, rfl⟩, by simp, by simp, by simp, by simp⟩
theorem witness_NoInstructionWritesTheLatchOrTheOutside : ∃ t, exec (.rnd 1 0x0F) State.reset = .next t ∧
    State.reset.fault = false ∧ t.fault = false ∧ State.reset.cfg.rndMode = .maskedDraw := ⟨_, rfl, rfl, rfl, rfl⟩
theorem witness_KeypadAndSoundTimerAreReadOnlyWhereSaid : (∃ t, exec .cls State.reset = .next t) ∧
    (∀ x, Instr.cls ≠ .skp x) ∧ (∀ x, Instr.cls ≠ .sknp x) ∧ (∀ x, Instr.cls ≠ .ldVxK x) ∧ (∀ x, Instr.cls ≠ .ldSTVx x) ∧
    ∃ t, exec (.ldSTVx 2) State.reset = .next t := ⟨⟨_, rfl⟩, by simp, by simp, by simp, by simp, _, rfl⟩
theorem witness_CoreAlwaysStepsAndKeepsItsParameters : State.reset.loadError = false ∧
    (Latched State.reset 4 0).loadError = false ∧ (Latched State.reset 4 0).fault = true := ⟨rfl, rfl, rfl⟩

end Sys2Proof.Tests
end

section
/-! The reset state: what memory, the registers, the stack, the display and the keys read as in it (10_state R32). -/

namespace Sys2Proof.Machine

@[simp] theorem resetByte_font (c : Config) (i : Fin 80) : resetByte c (0x050 + i.val) = c.font[i] := by
  have hin : 0x050 ≤ 0x050 + i.val ∧ 0x050 + i.val < 0x0A0 := by omega
  simp [resetByte, hin]

theorem resetByte_outside_font (c : Config) (a : Nat) (h : ¬ (0x050 ≤ a ∧ a ≤ 0x09F)) : resetByte c a = 0 :=
  dif_neg (by omega)

/-- Memory lists nothing after reset, so every address reads as its reset contents. -/
@[simp] theorem State.readByte_resetWith (c : Config) (a : Nat) :
    (State.resetWith c).readByte a = resetByte c a := rfl

@[simp] theorem State.reg_resetWith (c : Config) (r : Reg) : (State.resetWith c).reg r = 0 :=
  Vector.getElem_replicate r.isLt

@[simp] theorem State.stack_resetWith (c : Config) (k : Fin 16) : (State.resetWith c).stack[k] = 0 :=
  Vector.getElem_replicate k.isLt

@[simp] theorem State.fb_resetWith (c : Config) (x : Fin 64) (y : Fin 32) :
    (State.resetWith c).fb x y = false :=
  clearDisplay_cell y x

@[simp] theorem State.key_resetWith (c : Config) (k : Nat) : (State.resetWith c).key.getLsbD k = false :=
  BitVec.getLsbD_zero

/-- Settles O1: each vector and each address through its lemma above; the fields R32 gives outright by definition. -/
theorem resetPutsEveryElementAtItsValue : Obligations.ResetPutsEveryElementAtItsValue := by
  intro c
  refine ⟨State.reg_resetWith c, rfl, rfl, rfl, State.stack_resetWith c, rfl, rfl, ?outsideFont, ?font,
    State.fb_resetWith c, fun k => State.key_resetWith c k, rfl, rfl, rfl, rfl, rfl, rfl, rfl, rfl⟩
  case outsideFont =>
    intro a _ hout
    rw [State.readByte_resetWith, resetByte_outside_font c a hout]
  case font =>
    intro i
    rw [State.readByte_resetWith, resetByte_font]

end Sys2Proof.Machine
end

section
/-! The host's program load (20_memory R55), over what a run of stores does to memory. -/

namespace Sys2Proof.Machine

theorem State.readByte_storeBytes_inside (s : State) (a : Nat) (vs : List Byte) (i : Nat) (h : i < vs.length) :
    (s.storeBytes a vs).readByte (a + i) = vs[i] := by
  have hin : a ≤ a + i ∧ a + i < a + vs.length := by omega
  simp [State.readByte_storeBytes, hin]

theorem State.readByte_storeBytes_outside (s : State) (a : Nat) (vs : List Byte) (b : Nat)
    (h : ¬ (a ≤ b ∧ b < a + vs.length)) : (s.storeBytes a vs).readByte b = s.readByte b := by
  rw [State.readByte_storeBytes, dif_neg h]

theorem State.hostLoad_accepted (s : State) (image : List Byte) (hs : s.started = false) (hf : s.fault = false)
    (hlen : image.length ≤ maxProg) : s.hostLoad image = .next (s.storeBytes progBase image) := by
  have hfits : ¬ image.length > maxProg := Nat.not_lt.mpr hlen
  simp [State.hostLoad, hs, hf, hfits]

/-- Settles O6: an accepted load is one run of stores from 0x200, whose bytes, frame and untouched fields are the
three facts about `storeBytes`. -/
theorem loadCopiesTheImage : Obligations.LoadCopiesTheImage := by
  intro s image hs hf hlen
  exact ⟨s.storeBytes progBase image, s.hostLoad_accepted image hs hf hlen, s.storeBytes_eq progBase image,
    s.readByte_storeBytes_inside progBase image, s.readByte_storeBytes_outside progBase image⟩

end Sys2Proof.Machine
end

section
/-! The cycle's faults (40_cycle R81, R86): what a faulting cycle commits, and what the fetch reads or raises. -/

namespace Sys2Proof.Machine

/-- The timer stage raises nothing, so a commit that ends halted is the discarding branch of R86. -/
theorem State.commit_eq_latched_of_fault (s u : State) (h : (s.commit u).fault = true) :
    s.commit u = Latched s (s.commit u).faultCode (s.commit u).faultInfo := by
  cases hu : u.fault with
  | true => rw [State.commit_of_fault s u hu]; rfl
  | false => simp [State.commit_of_running s u hu, hu] at h

/-- Settles O19: of the ways a running core can step, the fetch fault raises on the starting state, and both kinds of
word end in a commit. -/
theorem faultingCycleCommitsOnlyTheLatch : Obligations.FaultingCycleCommitsOnlyTheLatch := by
  refine ⟨?running, step_halted⟩
  intro s t hs hstep ht
  rcases step_cases s t hstep with ⟨hhalted, _⟩ | ⟨_, _, rfl⟩ | ⟨_, _, _, _, u, _, _, _, rfl⟩ | ⟨_, _, _, _, _, _, rfl⟩
  case inl => simp [hs] at hhalted
  case inr.inl => rfl
  case inr.inr.inl => exact s.commit_eq_latched_of_fault u ht
  case inr.inr.inr => exact s.commit_eq_latched_of_fault _ ht

theorem State.fetchWord_of_le (s : State) (h : s.pc.toNat ≤ 0xFFE) :
    s.fetchWord = some (s.readByte s.pc.toNat ++ s.readByte (s.pc.toNat + 1)) := by
  rcases s.fetchWord_cases with ⟨_, hw⟩ | ⟨hpc, _⟩
  · exact hw
  · omega

/-- Settles O17: within memory the two bytes are the word; beyond 0xFFE the step raises FetchOutOfRange, code 1. -/
theorem fetchReadsBigEndianOrFaults : Obligations.FetchReadsBigEndianOrFaults :=
  fun s => ⟨s.fetchWord_of_le, fun hpc hr => step_fetchFault s hr hpc⟩

end Sys2Proof.Machine
end

section
/-! Decoding the word of an instruction (30_encoding R62, R65): the fields of the word are its operands. -/

namespace Sys2Proof

theorem decode_encode_of_wellFormed (c : Config) (i : Instr) (h : i.wellFormed c = true) :
    decode c (encode i) = .ok i := by
  cases i with
  | cls | ret => rfl
  | jp | call | ldI | jpV0 => simp [encode, decode]
  | seImm | sneImm | ldImm | addImm => simp [encode, decode]
  | seReg | sneReg | drw => simp [encode, decode]
  | ldReg | orReg | andReg | xorReg | addReg | subReg | shr | subnReg | shl => simp [encode, decode, decodeFamily8]
  | skp | sknp => simp [encode, decode, decodeFamilyE]
  | ldVxDT | ldVxK | ldDTVx | ldSTVx | addI | ldF | ldB | storeRegs | loadRegs =>
    simp [encode, decode, decodeFamilyF]
  | rnd x nn =>
    have hmode : c.rndMode = .maskedDraw := by simpa [Instr.wellFormed] using h
    simp [encode, decode, decodeFamilyC, hmode]

end Sys2Proof
end

section
/-! Writing one register (41 R91 to R96): the destination's value and the frame; and the instructions that do it. -/

namespace Sys2Proof.Machine

theorem State.reg_setReg_self (s : State) (x : Reg) (v : Byte) : (s.setReg x v).reg x = v := by
  rw [State.reg_setReg, if_pos rfl]

theorem State.sameRegsBut_setReg (s : State) (x : Reg) (v : Byte) : SameRegsBut (· = x) s (s.setReg x v) := by
  intro r hr
  rw [State.reg_setReg, if_neg hr]

theorem State.onlyRegs_setReg (s : State) (x : Reg) (v : Byte) : OnlyRegs s (s.setReg x v) := rfl

/-- Settles O23: both words decode, and both meanings are one register write of the operand. -/
theorem loadImmediateAndCopyWriteTheDestination : Obligations.LoadImmediateAndCopyWriteTheDestination := by
  intro c s x y nn
  refine ⟨decode_encode_of_wellFormed c (.ldImm x nn) rfl, decode_encode_of_wellFormed c (.ldReg x y) rfl,
    ?immediate, ?copy⟩
  case immediate =>
    exact ⟨s.setReg x nn, rfl, s.reg_setReg_self x nn, s.sameRegsBut_setReg x nn, s.onlyRegs_setReg x nn⟩
  case copy =>
    exact ⟨s.setReg x (s.reg y), rfl, s.reg_setReg_self x _, s.sameRegsBut_setReg x _, s.onlyRegs_setReg x _⟩

/-- Settles O24: the meaning is one register write, of the exact sum narrowed to 8 bits. -/
theorem addImmediateWrapsWithoutFlag : Obligations.AddImmediateWrapsWithoutFlag := by
  intro c s x nn
  refine ⟨decode_encode_of_wellFormed c (.addImm x nn) rfl,
    s.setReg x (BitVec.ofNat 8 ((s.reg x).toNat + nn.toNat)), rfl, ?sum, s.sameRegsBut_setReg x _,
    s.onlyRegs_setReg x _⟩
  case sum => rw [State.reg_setReg_self, BitVec.toNat_ofNat]

/-- Settles O25: each meaning is one register write, of a word whose bits are the operation on the operands' bits. -/
theorem logicIsBitwiseAndKeepsFlag : Obligations.LogicIsBitwiseAndKeepsFlag := by
  intro c s x y
  refine ⟨decode_encode_of_wellFormed c (.orReg x y) rfl, decode_encode_of_wellFormed c (.andReg x y) rfl,
    decode_encode_of_wellFormed c (.xorReg x y) rfl,
    ⟨s.setReg x (s.reg x ||| s.reg y), rfl, ?or, s.sameRegsBut_setReg x _, s.onlyRegs_setReg x _⟩,
    ⟨s.setReg x (s.reg x &&& s.reg y), rfl, ?and, s.sameRegsBut_setReg x _, s.onlyRegs_setReg x _⟩,
    ⟨s.setReg x (s.reg x ^^^ s.reg y), rfl, ?xor, s.sameRegsBut_setReg x _, s.onlyRegs_setReg x _⟩⟩
  case or => intro k _; rw [State.reg_setReg_self, BitVec.getLsbD_or]
  case and => intro k _; rw [State.reg_setReg_self, BitVec.getLsbD_and]
  case xor => intro k _; rw [State.reg_setReg_self, BitVec.getLsbD_xor]

end Sys2Proof.Machine
end

section
/-! Writing a result and then its flag (41 R97 to R101, R103): the two values, the frame, and the flags as numbers. -/

namespace Sys2Proof.Machine

theorem State.reg_setResultFlag_VF (s : State) (x : Reg) (v f : Byte) : (s.setResultFlag x v f).reg VF = f := by
  rw [State.reg_setResultFlag, if_pos rfl]

theorem State.reg_setResultFlag_dest (s : State) (x : Reg) (v f : Byte) (hx : x ≠ VF) :
    (s.setResultFlag x v f).reg x = v := by
  rw [State.reg_setResultFlag, if_neg hx, if_pos rfl]

theorem State.sameRegsBut_setResultFlag (s : State) (x : Reg) (v f : Byte) :
    SameRegsBut (fun r => r = x ∨ r = VF) s (s.setResultFlag x v f) := by
  intro r hr
  obtain ⟨hdest, hflag⟩ := not_or.mp hr
  rw [State.reg_setResultFlag, if_neg hflag, if_neg hdest]

theorem State.onlyRegs_setResultFlag (s : State) (x : Reg) (v f : Byte) : OnlyRegs s (s.setResultFlag x v f) := rfl

theorem flagByte_decide (p : Prop) [Decidable p] : flagByte (decide p) = if p then 1 else 0 := by
  simp [flagByte]

theorem carryFlag_eq (a b : Byte) : carryFlag a b = if a.toNat + b.toNat > 255 then 1 else 0 := flagByte_decide _

theorem notBorrowFlag_eq (a b : Byte) : notBorrowFlag a b = if a.toNat ≥ b.toNat then 1 else 0 := flagByte_decide _

theorem shiftRightOut_toNat (v : Byte) : (shiftRightOut v).toNat = v.toNat % 2 := by
  rw [shiftRightOut, BitVec.toNat_ofNat]
  omega

theorem shiftLeftOut_toNat (v : Byte) : (shiftLeftOut v).toNat = v.toNat / 128 := by
  rw [shiftLeftOut, BitVec.toNat_ofNat]
  omega

/-- An exact integer narrowed to a byte is its residue modulo 256, also when it is negative (R90). -/
theorem coe_toNat_ofInt (d : Int) : ((BitVec.ofInt 8 d).toNat : Int) = d % 256 := by
  rw [BitVec.toNat_ofInt]
  exact Int.toNat_of_nonneg (Int.emod_nonneg d (by decide))

/-- The shifts' operand, by the two values of SHIFT_SOURCE. -/
theorem State.shiftOperand_eq (s : State) (x y : Reg) (v : Byte)
    (h : s.cfg.shiftSource = .vx ∧ v = s.reg x ∨ s.cfg.shiftSource = .vy ∧ v = s.reg y) :
    s.shiftOperand x y = v := by
  rcases h with ⟨hvx, rfl⟩ | ⟨hvy, rfl⟩
  · exact s.shiftOperand_vx x y hvx
  · exact s.shiftOperand_vy x y hvy

/-- Settles O26: the meaning writes the narrowed sum, then the carry. -/
theorem addSetsSumAndCarry : Obligations.AddSetsSumAndCarry := by
  intro c s x y
  refine ⟨decode_encode_of_wellFormed c (.addReg x y) rfl, _, rfl, ?sum, ?carry, s.sameRegsBut_setResultFlag x _ _,
    s.onlyRegs_setResultFlag x _ _⟩
  case sum => intro hx; rw [s.reg_setResultFlag_dest x _ _ hx, BitVec.toNat_ofNat]
  case carry => rw [State.reg_setResultFlag_VF, carryFlag_eq]

/-- What both subtractions leave, 8XY5 for `a - b` and 8XY7 with the operands the other way round (R98, R100). -/
theorem State.setResultFlag_difference (s : State) (x : Reg) (a b : Byte) (t : State)
    (ht : t = s.setResultFlag x (BitVec.ofInt 8 (a.toNat - b.toNat : Int)) (notBorrowFlag a b)) :
    (x ≠ VF → ((t.reg x).toNat : Int) = (a.toNat - b.toNat : Int) % 256) ∧
    t.reg VF = (if a.toNat ≥ b.toNat then 1 else 0) ∧
    SameRegsBut (fun r => r = x ∨ r = VF) s t ∧ OnlyRegs s t := by
  subst ht
  refine ⟨?difference, ?notBorrow, s.sameRegsBut_setResultFlag x _ _, s.onlyRegs_setResultFlag x _ _⟩
  case difference => intro hx; rw [s.reg_setResultFlag_dest x _ _ hx, coe_toNat_ofInt]
  case notBorrow => rw [State.reg_setResultFlag_VF, notBorrowFlag_eq]

/-- Settles O27: the two meanings are one difference with its not-borrow, the operands exchanged. -/
theorem subtractionsSetDifferenceAndNotBorrow : Obligations.SubtractionsSetDifferenceAndNotBorrow := by
  intro c s x y
  exact ⟨decode_encode_of_wellFormed c (.subReg x y) rfl, decode_encode_of_wellFormed c (.subnReg x y) rfl,
    ⟨_, rfl, s.setResultFlag_difference x (s.reg x) (s.reg y) _ rfl⟩,
    ⟨_, rfl, s.setResultFlag_difference x (s.reg y) (s.reg x) _ rfl⟩⟩

/-- Settles O28: whichever register SHIFT_SOURCE names, the meaning writes its value shifted, then the bit moved out;
a right shift needs no narrowing. -/
theorem shiftsMoveOneBitIntoFlag : Obligations.ShiftsMoveOneBitIntoFlag := by
  intro c s x y v
  refine ⟨decode_encode_of_wellFormed c (.shr x y) rfl, decode_encode_of_wellFormed c (.shl x y) rfl, ?_⟩
  intro hsource
  obtain rfl := s.shiftOperand_eq x y v hsource
  refine ⟨⟨_, rfl, ?half, ?lowBit, s.sameRegsBut_setResultFlag x _ _, s.onlyRegs_setResultFlag x _ _⟩,
    ⟨_, rfl, ?double, ?highBit, s.sameRegsBut_setResultFlag x _ _, s.onlyRegs_setResultFlag x _ _⟩⟩
  case half =>
    intro hx
    rw [s.reg_setResultFlag_dest x _ _ hx, BitVec.toNat_ofNat]
    omega
  case lowBit => rw [State.reg_setResultFlag_VF, shiftRightOut_toNat]
  case double => intro hx; rw [s.reg_setResultFlag_dest x _ _ hx, BitVec.toNat_ofNat]
  case highBit => rw [State.reg_setResultFlag_VF, shiftLeftOut_toNat]

end Sys2Proof.Machine
end

section
/-! Jumps, call and return (42 R111 to R114): the new `pc` as a number, and each meaning as one update of the state. -/

namespace Sys2Proof.Machine

theorem zextAddr_toNat (nnn : Addr12) : (zextAddr nnn).toNat = nnn.toNat :=
  BitVec.toNat_setWidth_of_le (by decide)

/-- A 12-bit address plus a register stays below 2^16, so the sum is exact. -/
theorem zextAddr_add_zextByte_toNat (nnn : Addr12) (v : Byte) :
    (zextAddr nnn + zextByte v).toNat = nnn.toNat + v.toNat := by
  have hv : (zextByte v).toNat = v.toNat := BitVec.toNat_setWidth_of_le (by decide)
  rw [BitVec.toNat_add, zextAddr_toNat, hv]
  omega

theorem State.onlyPc_setPc (s : State) (w : Word) : OnlyPc s (s.setPc w) := rfl

theorem exec_call_of_lt (s : State) (nnn : Addr12) (h : s.sp.val < 16) :
    exec (.call nnn) s = .next
      { s with pc := zextAddr nnn, sp := ⟨s.sp.val + 1, by omega⟩, stack := s.stack.set s.sp.val s.pc } := by
  simp only [exec, execCall, s.pushPc_of_lt h]
  rfl

theorem exec_call_full (s : State) (nnn : Addr12) (h : s.sp = 16) :
    exec (.call nnn) s = .next (Latched s 3 16) := by
  simp only [exec, execCall, s.pushPc_full h, h]
  rfl

theorem exec_ret_of_succ (s : State) (k : Fin 16) (h : s.sp.val = k.val + 1) :
    exec .ret s = .next { s with pc := s.stack[k], sp := k.castSucc } := by
  simp only [exec, execRet, s.popPc_of_pos (by omega), h, Nat.add_sub_cancel]
  rfl

theorem exec_ret_empty (s : State) (h : s.sp = 0) : exec .ret s = .next (Latched s 4 0) := by
  simp only [exec, execRet, s.popPc_empty h, h]
  rfl

/-- Settles O32: the meaning is one write of `pc`, with the address field zero-extended. -/
theorem jumpSetsPc : Obligations.JumpSetsPc := by
  intro c s nnn
  exact ⟨decode_encode_of_wellFormed c (.jp nnn) rfl, s.setPc (zextAddr nnn), rfl, zextAddr_toNat nnn,
    s.onlyPc_setPc _⟩

/-- Settles O33: with room the meaning writes `pc`, the pointer and the entry the pointer names; when full it
raises. -/
theorem callPushesOrOverflows : Obligations.CallPushesOrOverflows := by
  intro c s nnn
  refine ⟨decode_encode_of_wellFormed c (.call nnn) rfl, ?room, exec_call_full s nnn⟩
  case room =>
    intro hroom
    refine ⟨_, exec_call_of_lt s nnn hroom, zextAddr_toNat nnn, rfl, ?entries, rfl⟩
    case entries =>
      intro k
      simp [Vector.getElem_set, eq_comm]

/-- Settles O34: the two cases of the pop, at `k + 1` entries and at none. -/
theorem returnPopsOrUnderflows : Obligations.ReturnPopsOrUnderflows := by
  intro c s
  exact ⟨decode_encode_of_wellFormed c .ret rfl, fun k hk => ⟨_, exec_ret_of_succ s k hk, rfl, rfl, rfl⟩,
    exec_ret_empty s⟩

/-- Settles O36: the meaning is one write of `pc`, with a sum that 16 bits hold exactly. -/
theorem indexedJumpAddsRegisterZero : Obligations.IndexedJumpAddsRegisterZero := by
  intro c s nnn
  exact ⟨decode_encode_of_wellFormed c (.jpV0 nnn) rfl, s.setPc (zextAddr nnn + zextByte (s.reg 0)), rfl,
    zextAddr_add_zextByte_toNat nnn (s.reg 0), s.onlyPc_setPc _⟩

end Sys2Proof.Machine
end

section
/-! The compare-and-skip instructions (42 R110, R115 to R118): one skip, over four conditions. -/

namespace Sys2Proof.Machine

theorem State.skipIf_eq_ite (s : State) (b : Bool) (p : Prop) [Decidable p] (h : b = true ↔ p) :
    s.skipIf b = if p then s.setPc (s.pc + 2) else s := by
  simp only [State.skipIf, h]

/-- Settles O37: each meaning is the skip on a Boolean that says its condition; no meaning reads the nibble n. -/
theorem skipsAddTwoWhenTheConditionHolds : Obligations.SkipsAddTwoWhenTheConditionHolds := by
  intro c s x y n nn
  exact ⟨decode_encode_of_wellFormed c (.seImm x nn) rfl, decode_encode_of_wellFormed c (.sneImm x nn) rfl,
    decode_encode_of_wellFormed c (.seReg x y n) rfl, decode_encode_of_wellFormed c (.sneReg x y n) rfl,
    congrArg _ (s.skipIf_eq_ite _ _ beq_iff_eq), congrArg _ (s.skipIf_eq_ite _ _ bne_iff_ne),
    congrArg _ (s.skipIf_eq_ite _ _ beq_iff_eq), congrArg _ (s.skipIf_eq_ite _ _ bne_iff_ne)⟩

end Sys2Proof.Machine
end

section
/-! Clear and sprite draw (43 R121, R122): the drawn sprite is the bytes from `I` up, so the composer's 1 bits are the
cells of the rule, and its flag is a collision on one of them. -/

namespace Sys2Proof.Machine

/-- Settles O38: the meaning is one write of the display, with the clear one. -/
theorem clearTurnsEveryCellOff : Obligations.ClearTurnsEveryCellOff := by
  intro c s
  exact ⟨decode_encode_of_wellFormed c .cls rfl, s.setDisp clearDisplay, rfl, fun x y => clearDisplay_cell y x, rfl⟩

/-- What DXYN draws when its rows are in memory: the N bytes from `I` up, at the origin in `x[X]`, `x[Y]`. -/
abbrev State.drawn (s : State) (x y : Reg) (n : Nibble) : State :=
  s.drawAt (s.reg x) (s.reg y) (s.readBytes s.I.toNat n.toNat)

theorem exec_drw_inside (s : State) (x y : Reg) (n : Nibble)
    (h : n.toNat = 0 ∨ s.I.toNat + n.toNat - 1 ≤ 0xFFF) : exec (.drw x y n) s = .next (s.drawn x y n) :=
  congrArg _ (s.guardAccess_inside _ _ (by simp only [lastAddr]; omega))

theorem exec_drw_outside (s : State) (x y : Reg) (n : Nibble) (hn : 0 < n.toNat)
    (h : s.I.toNat + n.toNat - 1 > 0xFFF) :
    exec (.drw x y n) s = .next (Latched s 2 (BitVec.ofNat 16 (max s.I.toNat 0x1000))) :=
  congrArg _ (s.guardAccess_outside _ _ ⟨hn, h⟩)

theorem spriteBit_readBytes (s : State) (x y : Reg) (n : Nibble) (row col : Nat) :
    spriteBit (s.readBytes s.I.toNat n.toNat) ((s.reg y).toNat % 32) ((s.reg x).toNat % 64) row col = true ↔
      SpriteToggles s x y n row col := by
  by_cases hrow : row - (s.reg y).toNat % 32 < n.toNat
  · rw [spriteBit, s.readBytes_getD _ _ _ hrow, State.readBytes_length, Bool.and_eq_true, decide_eq_true_eq]
    constructor
    · rintro ⟨hbox, hbit⟩
      exact ⟨by omega, by omega, by omega, by omega, by omega, by omega, hbit⟩
    · rintro ⟨hy, hx, hy0, hyn, hx0, hx7, hbit⟩
      exact ⟨by omega, hbit⟩
  · simp only [spriteBit, State.readBytes_length, Bool.and_eq_true, decide_eq_true_eq]
    constructor
    · rintro ⟨hbox, -⟩; omega
    · rintro ⟨-, -, hy0, hyn, -⟩; omega

theorem State.drawn_cell_of_toggles (s : State) (x y : Reg) (n : Nibble) (row col : Nat)
    (h : SpriteToggles s x y n row col) : (s.drawn x y n).disp.cell row col = !s.disp.cell row col := by
  rw [State.drawAt_cell, (spriteBit_readBytes s x y n row col).mpr h, Bool.xor_true]

theorem State.drawn_cell_of_not_toggles (s : State) (x y : Reg) (n : Nibble) (row col : Nat)
    (h : ¬ SpriteToggles s x y n row col) : (s.drawn x y n).disp.cell row col = s.disp.cell row col := by
  rw [State.drawAt_cell, Bool.eq_false_iff.mpr (mt (spriteBit_readBytes s x y n row col).mp h), Bool.xor_false]

theorem flagByte_eq_one (b : Bool) : flagByte b = 1 ↔ b = true := by cases b <;> decide

theorem flagByte_eq_zero (b : Bool) : flagByte b = 0 ↔ ¬ b = true := by cases b <;> decide

/-- A toggled cell was on before the draw (43 R122). -/
abbrev Collides (s : State) (x y : Reg) (n : Nibble) : Prop :=
  ∃ row col, SpriteToggles s x y n row col ∧ s.disp.cell row col = true

theorem drawSprite_flag_iff_collides (s : State) (x y : Reg) (n : Nibble) :
    (drawSprite (s.disp, false) (s.readBytes s.I.toNat n.toNat)
      ((s.reg y).toNat % 32) ((s.reg x).toNat % 64)).2 = true ↔ Collides s x y n := by
  simp only [drawSprite_flag, spriteBit_readBytes, Bool.false_eq_true, false_or]

theorem State.drawn_flag_eq_one (s : State) (x y : Reg) (n : Nibble) :
    (s.drawn x y n).reg VF = 1 ↔ Collides s x y n := by
  rw [State.reg_drawAt, if_pos rfl, flagByte_eq_one, drawSprite_flag_iff_collides]

theorem State.drawn_flag_eq_zero (s : State) (x y : Reg) (n : Nibble) :
    (s.drawn x y n).reg VF = 0 ↔ ¬ Collides s x y n := by
  rw [State.reg_drawAt, if_pos rfl, flagByte_eq_zero, drawSprite_flag_iff_collides]

theorem State.sameRegsBut_drawn (s : State) (x y : Reg) (n : Nibble) : SameRegsBut (· = VF) s (s.drawn x y n) := by
  intro r hr
  rw [State.reg_drawAt, if_neg hr]

/-- Settles O39: within memory the meaning is the draw of the rows read, whose cells and flag are the lemmas above;
beyond it, the range check raises. -/
theorem drawTogglesExactlyTheSpritesCells : Obligations.DrawTogglesExactlyTheSpritesCells := by
  intro c s x y n
  refine ⟨decode_encode_of_wellFormed c (.drw x y n) rfl, ?inside, exec_drw_outside s x y n⟩
  case inside =>
    intro hin
    exact ⟨s.drawn x y n, exec_drw_inside s x y n hin,
      fun row col _ _ => ⟨s.drawn_cell_of_toggles x y n row col, s.drawn_cell_of_not_toggles x y n row col⟩,
      (s.drawn_flag_eq_one x y n).mpr, (s.drawn_flag_eq_zero x y n).mpr, s.sameRegsBut_drawn x y n, rfl⟩

end Sys2Proof.Machine
end

section
/-! Index register, BCD and block transfer (44 R131 to R136): `I` as a number, the range check of `k + 1` bytes from `I`
up, and what a run of stores or loads over those bytes leaves. -/

namespace Sys2Proof.Machine

/-! ### Writing `I` -/

theorem zextByte_toNat (v : Byte) : (zextByte v).toNat = v.toNat := BitVec.toNat_setWidth_of_le (by decide)

theorem State.onlyIndex_setI (s : State) (w : Word) : OnlyIndex s (s.setI w) := rfl

/-- Settles O41: each meaning is one write of `I`; only FX1E's sum can pass 16 bits. -/
theorem indexInstructionsSetI : Obligations.IndexInstructionsSetI := by
  intro c s x nnn
  refine ⟨decode_encode_of_wellFormed c (.ldI nnn) rfl, decode_encode_of_wellFormed c (.addI x) rfl,
    decode_encode_of_wellFormed c (.ldF x) rfl,
    ⟨s.setI (zextAddr nnn), rfl, zextAddr_toNat nnn, s.onlyIndex_setI _⟩,
    ⟨s.setI (s.I + zextByte (s.reg x)), rfl, ?sum, s.onlyIndex_setI _⟩,
    ⟨s.setI (glyphAddr (s.reg x)), rfl, glyphAddr_toNat (s.reg x), s.onlyIndex_setI _⟩⟩
  case sum => rw [State.setI_I, BitVec.toNat_add, zextByte_toNat]

/-! ### An access of `k + 1` bytes from `I` up -/

theorem State.guardAccess_succ_inside (s t : State) (k : Nat) (h : s.I.toNat + k ≤ 0xFFF) :
    s.guardAccess (k + 1) t = t :=
  s.guardAccess_inside t _ (by simp only [lastAddr]; omega)

theorem State.guardAccess_succ_outside (s t : State) (k : Nat) (h : s.I.toNat + k > 0xFFF) :
    s.guardAccess (k + 1) t = Latched s 2 (BitVec.ofNat 16 (max s.I.toNat 0x1000)) :=
  s.guardAccess_outside t _ ⟨k.succ_pos, h⟩

theorem State.sameBytesBut_storeBytes (s : State) (a k : Nat) (vs : List Byte) (hlen : vs.length = k + 1) :
    SameBytesBut (fun b => a ≤ b ∧ b ≤ a + k) s (s.storeBytes a vs) :=
  fun b hb => s.readByte_storeBytes_outside a vs b (by omega)

/-! ### The decimal digits -/

/-- Each digit is below 10, so a byte holds it exactly. -/
theorem bcdDigits_map_toNat (v : Byte) :
    (bcdDigits v).map BitVec.toNat = [v.toNat / 100, v.toNat / 10 % 10, v.toNat % 10] := by
  simp (disch := omega) only [bcdDigits, List.map_cons, List.map_nil, BitVec.toNat_ofNat, Nat.mod_eq_of_lt]

theorem State.readByte_storeBcd_toNat (s : State) (a : Nat) (v : Byte) (i : Nat) (h : i < 3) :
    ((s.storeBytes a (bcdDigits v)).readByte (a + i)).toNat = [v.toNat / 100, v.toNat / 10 % 10, v.toNat % 10][i] := by
  have hi : i < (bcdDigits v).length := h
  simp only [s.readByte_storeBytes_inside a (bcdDigits v) i hi, ← bcdDigits_map_toNat, List.getElem_map]

/-- Settles O42: within memory the meaning is a run of three stores, the digits; beyond it, the range check raises. -/
theorem bcdStoresThreeDigits : Obligations.BcdStoresThreeDigits := by
  intro c s x
  refine ⟨decode_encode_of_wellFormed c (.ldB x) rfl, ?inside, ?outside⟩
  case inside =>
    intro hin
    exact ⟨s.storeBytes s.I.toNat (bcdDigits (s.reg x)), congrArg _ (s.guardAccess_succ_inside _ 2 hin),
      s.readByte_storeBcd_toNat _ _ 0 (by decide), s.readByte_storeBcd_toNat _ _ 1 (by decide),
      s.readByte_storeBcd_toNat _ _ 2 (by decide), s.sameBytesBut_storeBytes _ 2 _ rfl, s.storeBytes_eq _ _⟩
  case outside => exact fun hout => congrArg _ (s.guardAccess_succ_outside _ 2 hout)

/-! ### Block transfer -/

theorem State.readByte_storeRegsUpTo (s : State) (a : Nat) (x r : Reg) (h : r ≤ x) :
    (s.storeBytes a (s.regsUpTo x)).readByte (a + r.val) = s.reg r := by
  have hr : r.val < (s.regsUpTo x).length := by rw [State.regsUpTo_length]; exact Nat.lt_succ_of_le h
  rw [s.readByte_storeBytes_inside a _ _ hr, State.regsUpTo_getElem]

/-- Settles O43: within memory the meaning is a run of stores of x[0] to x[X]; beyond it, the range check raises. -/
theorem blockStoreWritesRegistersInOrder : Obligations.BlockStoreWritesRegistersInOrder := by
  intro c s x
  refine ⟨decode_encode_of_wellFormed c (.storeRegs x) rfl, ?inside, ?outside⟩
  case inside =>
    intro hin
    exact ⟨s.storeBytes s.I.toNat (s.regsUpTo x), congrArg _ (s.guardAccess_succ_inside _ x.val hin),
      s.readByte_storeRegsUpTo _ x, s.sameBytesBut_storeBytes _ x.val _ (s.regsUpTo_length x), s.storeBytes_eq _ _⟩
  case outside => exact fun hout => congrArg _ (s.guardAccess_succ_outside _ x.val hout)

theorem State.reg_loadRegsUpTo_of_le (s : State) (x r : Reg) (h : r ≤ x) :
    (s.loadRegsUpTo x).reg r = s.readByte (s.I.toNat + r.val) := by
  rw [State.reg_loadRegsUpTo, if_pos h]

theorem State.sameRegsBut_loadRegsUpTo (s : State) (x : Reg) : SameRegsBut (· ≤ x) s (s.loadRegsUpTo x) := by
  intro r hr
  rw [State.reg_loadRegsUpTo, if_neg hr]

/-- Settles O44: within memory the meaning writes the registers up to X with the bytes read, all at once; beyond it,
the range check raises. -/
theorem blockLoadReadsRegistersInOrder : Obligations.BlockLoadReadsRegistersInOrder := by
  intro c s x
  refine ⟨decode_encode_of_wellFormed c (.loadRegs x) rfl, ?inside, ?outside⟩
  case inside =>
    intro hin
    exact ⟨s.loadRegsUpTo x, congrArg _ (s.guardAccess_succ_inside _ x.val hin), s.reg_loadRegsUpTo_of_le x,
      s.sameRegsBut_loadRegsUpTo x, rfl⟩
  case outside => exact fun hout => congrArg _ (s.guardAccess_succ_outside _ x.val hout)

end Sys2Proof.Machine
end

section
/-! Keypad and timer instructions (45 R141 to R146): the key a register names, or none above 15; and a copy between a
register and a timer, which the timer stage then finds written. -/

namespace Sys2Proof.Machine

/-! ### The key skips -/

theorem State.keyPressed?_of_key (s : State) (x : Reg) (k : Fin 16) (h : (s.reg x).toNat = k.val) :
    s.keyPressed? x = some (s.key.getLsbD k.val) := by
  rcases s.keyPressed?_cases x with ⟨_, hkey⟩ | ⟨habove, _⟩
  · rw [hkey, h]
  · omega

theorem State.keyPressed?_above (s : State) (x : Reg) (h : (s.reg x).toNat > 15) : s.keyPressed? x = none := by
  rcases s.keyPressed?_cases x with ⟨hbelow, _⟩ | ⟨_, hnone⟩
  · omega
  · exact hnone

theorem exec_skp_of_key (s : State) (x : Reg) (k : Fin 16) (h : (s.reg x).toNat = k.val) :
    exec (.skp x) s = .next (s.skipIf (s.key.getLsbD k.val)) := by
  simp only [exec, execSkp, s.keyPressed?_of_key x k h]

theorem exec_sknp_of_key (s : State) (x : Reg) (k : Fin 16) (h : (s.reg x).toNat = k.val) :
    exec (.sknp x) s = .next (s.skipIf (!s.key.getLsbD k.val)) := by
  simp only [exec, execSknp, s.keyPressed?_of_key x k h]

theorem exec_skp_above (s : State) (x : Reg) (h : (s.reg x).toNat > 15) :
    exec (.skp x) s = .next (Latched s 5 ((s.reg x).setWidth 16)) := by
  simp only [exec, execSkp, s.keyPressed?_above x h]
  rfl

theorem exec_sknp_above (s : State) (x : Reg) (h : (s.reg x).toNat > 15) :
    exec (.sknp x) s = .next (Latched s 5 ((s.reg x).setWidth 16)) := by
  simp only [exec, execSknp, s.keyPressed?_above x h]
  rfl

/-- Settles O47: up to 15 each meaning is the skip on the named key's level or on its complement; above, both raise
with the full register. -/
theorem keySkipsTestTheNamedKey : Obligations.KeySkipsTestTheNamedKey := by
  intro c s x
  refine ⟨decode_encode_of_wellFormed c (.skp x) rfl, decode_encode_of_wellFormed c (.sknp x) rfl, ?named, ?above⟩
  case named =>
    intro k hk
    rw [exec_skp_of_key s x k hk, exec_sknp_of_key s x k hk]
    exact ⟨congrArg _ (s.skipIf_eq_ite _ _ Iff.rfl), congrArg _ (s.skipIf_eq_ite _ _ (Bool.not_eq_true' _).to_iff)⟩
  case above => exact fun habove => ⟨exec_skp_above s x habove, exec_sknp_above s x habove⟩

/-! ### The timer instructions -/

theorem State.timerStage_DT_toNat (s : State) : s.timerStage.DT.toNat = s.DT.toNat - 1 := decTimer_toNat s.DT

theorem State.timerStage_ST_toNat (s : State) : s.timerStage.ST.toNat = s.ST.toNat - 1 := decTimer_toNat s.ST

/-- Settles O50: each meaning is one write, of the register or of the timer; the timer stage starts from the timer so
left, and its tone is read before its decrement. -/
theorem timerInstructionsCopyThenTick : Obligations.TimerInstructionsCopyThenTick := by
  intro c s x
  refine ⟨decode_encode_of_wellFormed c (.ldVxDT x) rfl, decode_encode_of_wellFormed c (.ldDTVx x) rfl,
    decode_encode_of_wellFormed c (.ldSTVx x) rfl, ?readDelay, ?setDelay, ?setSound⟩
  case readDelay =>
    exact ⟨s.setReg x s.DT, rfl, s.reg_setReg_self x s.DT, s.sameRegsBut_setReg x s.DT, s.onlyRegs_setReg x s.DT,
      (s.setReg x s.DT).timerStage_DT_toNat⟩
  case setDelay => exact ⟨s.setDT (s.reg x), rfl, rfl, (s.setDT (s.reg x)).timerStage_DT_toNat⟩
  case setSound =>
    exact ⟨s.setST (s.reg x), rfl, rfl, (s.setST (s.reg x)).timerStage_ST_toNat,
      (s.setST (s.reg x)).timerStage_tone⟩

end Sys2Proof.Machine
end

section
/-! The faults of stage 3 (60 R151 to R156): the table of conditions, and the one case split over the instructions,
which says that stage 3 either raises by the table or completes. -/

namespace Sys2Proof.Machine

/-- The rows of the fault table that stage 3 can raise (60 R151): instruction, code and info. -/
inductive TableFault (s : State) : Instr → BitVec 3 → Word → Prop where
  | accessOutside {i : Instr} (h : AccessLeavesMemory i s) :
      TableFault s i 2 (BitVec.ofNat 16 (max s.I.toNat 0x1000))
  | callFull {nnn : Addr12} (h : s.sp = 16) : TableFault s (.call nnn) 3 16
  | retEmpty (h : s.sp = 0) : TableFault s .ret 4 0
  | keyAbove {i : Instr} {x : Reg} (hi : i = .skp x ∨ i = .sknp x) (h : (s.reg x).toNat > 15) :
      TableFault s i 5 ((s.reg x).setWidth 16)

theorem exec_of_accessLeavesMemory (i : Instr) (s : State) (h : AccessLeavesMemory i s) :
    exec i s = .next (Latched s 2 (BitVec.ofNat 16 (max s.I.toNat 0x1000))) := by
  cases i with
  | drw | ldB | storeRegs | loadRegs => exact congrArg _ (s.guardAccess_outside _ _ h)
  | _ => exact absurd h.1 (lt_irrefl 0)

/-- Each condition of the table raises. -/
theorem TableFault.exec_eq {s : State} {i : Instr} {code : BitVec 3} {info : Word} (h : TableFault s i code info) :
    exec i s = .next (Latched s code info) := by
  cases h with
  | accessOutside h => exact exec_of_accessLeavesMemory i s h
  | callFull h => exact exec_call_full s _ h
  | retEmpty h => exact exec_ret_empty s h
  | keyAbove hi h =>
    rcases hi with rfl | rfl
    · exact exec_skp_above s _ h
    · exact exec_sknp_above s _ h

/-- The delay timer that stage 3 leaves: FX15 alone writes it (10_state R19). -/
def delayAfter (i : Instr) (s : State) : Byte :=
  match i with
  | .ldDTVx x => s.reg x
  | _ => s.DT

/-- The sound timer that stage 3 leaves: FX18 alone writes it (10_state R20). -/
def soundAfter (i : Instr) (s : State) : Byte :=
  match i with
  | .ldSTVx x => s.reg x
  | _ => s.ST

/-- From `s` to `t` stage 3 of `i` raises nothing: the latch's flag is as it was, the timers are `i`'s. -/
structure Completes (i : Instr) (s t : State) : Prop where
  fault : t.fault = s.fault
  DT : t.DT = delayAfter i s
  ST : t.ST = soundAfter i s

/-- Everything stage 3 can do to the latch and the timers: raise by the table, or complete. -/
abbrev RaisesOrCompletes (i : Instr) (s t : State) : Prop :=
  (∃ code info, TableFault s i code info ∧ t = Latched s code info) ∨ Completes i s t

theorem TableFault.exec_raises {s : State} {i : Instr} {code : BitVec 3} {info : Word}
    (h : TableFault s i code info) : ∃ t, exec i s = .next t ∧ RaisesOrCompletes i s t :=
  ⟨_, h.exec_eq, .inl ⟨_, _, h, rfl⟩⟩

/-- The four instructions that access memory: the range check raises or lets the meaning through. -/
theorem exec_guardAccess_raisesOrCompletes (i : Instr) (s u : State)
    (he : exec i s = .next (s.guardAccess (dataBytes i) u)) (hu : Completes i s u) :
    ∃ t, exec i s = .next t ∧ RaisesOrCompletes i s t := by
  rcases s.guardAccess_cases u (dataBytes i) with ⟨_, hin⟩ | ⟨hout, _⟩
  · exact ⟨u, by rw [he, hin], .inr hu⟩
  · exact (TableFault.accessOutside hout).exec_raises

theorem State.skipIf_fault (s : State) (b : Bool) : (s.skipIf b).fault = s.fault := by cases b <;> rfl

theorem State.skipIf_DT (s : State) (b : Bool) : (s.skipIf b).DT = s.DT := by cases b <;> rfl

theorem State.skipIf_ST (s : State) (b : Bool) : (s.skipIf b).ST = s.ST := by cases b <;> rfl

theorem exec_keySkip_raisesOrCompletes (i : Instr) (s : State) (x : Reg) (hi : i = .skp x ∨ i = .sknp x) :
    ∃ t, exec i s = .next t ∧ RaisesOrCompletes i s t := by
  by_cases habove : (s.reg x).toNat > 15
  · exact (TableFault.keyAbove hi habove).exec_raises
  · have hkey : (s.reg x).toNat < 16 := by omega
    rcases hi with rfl | rfl
    · exact ⟨_, exec_skp_of_key s x ⟨_, hkey⟩ rfl, .inr ⟨s.skipIf_fault _, s.skipIf_DT _, s.skipIf_ST _⟩⟩
    · exact ⟨_, exec_sknp_of_key s x ⟨_, hkey⟩ rfl, .inr ⟨s.skipIf_fault _, s.skipIf_DT _, s.skipIf_ST _⟩⟩

theorem exec_raisesOrCompletes (i : Instr) (s : State) : ∃ t, exec i s = .next t ∧ RaisesOrCompletes i s t := by
  cases i with
  | cls | jp | ldImm | addImm | ldReg | orReg | andReg | xorReg | addReg | subReg | shr | subnReg | shl | ldI | jpV0
  | ldVxDT | ldDTVx | ldSTVx | addI | ldF => exact ⟨_, rfl, .inr ⟨rfl, rfl, rfl⟩⟩
  | seImm | sneImm | seReg | sneReg =>
    exact ⟨_, rfl, .inr ⟨s.skipIf_fault _, s.skipIf_DT _, s.skipIf_ST _⟩⟩
  | drw | loadRegs => exact exec_guardAccess_raisesOrCompletes _ s _ rfl ⟨rfl, rfl, rfl⟩
  | ldB | storeRegs =>
    exact exec_guardAccess_raisesOrCompletes _ s _ rfl
      ⟨s.storeBytes_fault _ _, s.storeBytes_DT _ _, s.storeBytes_ST _ _⟩
  | call nnn =>
    rcases s.pushPc_cases with ⟨hroom, _⟩ | ⟨hfull, _⟩
    · exact ⟨_, exec_call_of_lt s nnn hroom, .inr ⟨rfl, rfl, rfl⟩⟩
    · exact (TableFault.callFull hfull).exec_raises
  | ret =>
    rcases s.sp.eq_zero_or_eq_succ with hempty | ⟨k, hk⟩
    · exact (TableFault.retEmpty hempty).exec_raises
    · exact ⟨_, exec_ret_of_succ s k (congrArg Fin.val hk), .inr ⟨rfl, rfl, rfl⟩⟩
  | skp x => exact exec_keySkip_raisesOrCompletes _ s x (.inl rfl)
  | sknp x => exact exec_keySkip_raisesOrCompletes _ s x (.inr rfl)
  | ldVxK x =>
    cases hheld : s.heldKeys with
    | nil => exact ⟨s.setPc (s.pc - 2), by simp only [exec, execLdVxK, hheld], .inr ⟨rfl, rfl, rfl⟩⟩
    | cons k ks =>
      exact ⟨(s.setReg x (BitVec.ofNat 8 (s.chooseKey k ks).val)).countDraw, by simp only [exec, execLdVxK, hheld],
        .inr ⟨rfl, rfl, rfl⟩⟩
  | rnd x nn =>
    cases hmode : s.cfg.rndMode with
    | maskedDraw =>
      exact ⟨s.maskedDraw x nn (Config.freeByte s.draws), by simp only [exec, execRnd, hmode], .inr ⟨rfl, rfl, rfl⟩⟩
    | unknown =>
      exact ⟨s.reportUnknown (encode (.rnd x nn)), by simp only [exec, execRnd, hmode], .inr ⟨rfl, rfl, rfl⟩⟩

/-- Settles O20: a condition of the table raises, and a state with the latch newly set comes from one. -/
theorem executeFaultsExactlyOnTheTableConditions : Obligations.ExecuteFaultsExactlyOnTheTableConditions := by
  intro i s t hs hexec
  have latched {code info} (h : TableFault s i code info) : t = Latched s code info :=
    Host.Outcome.next.inj (hexec.symm.trans h.exec_eq)
  refine ⟨fun h => latched (.accessOutside h), ?call, ?ret, ?key, ?converse⟩
  case call => rintro nnn rfl h; exact latched (.callFull h)
  case ret => rintro rfl h; exact latched (.retEmpty h)
  case key => exact fun x hi h => latched (.keyAbove hi h)
  case converse =>
    intro ht
    obtain ⟨u, hu, hcases⟩ := exec_raisesOrCompletes i s
    obtain rfl : u = t := Host.Outcome.next.inj (hu.symm.trans hexec)
    rcases hcases with ⟨code, info, hraised, _⟩ | hdone
    · cases hraised with
      | accessOutside h => exact .inl h
      | callFull h => exact .inr (.inl ⟨_, rfl, h⟩)
      | retEmpty h => exact .inr (.inr (.inl ⟨rfl, h⟩))
      | keyAbove hi h => exact .inr (.inr (.inr ⟨_, hi, h⟩))
    · simp [hdone.fault, hs] at ht

end Sys2Proof.Machine
end

section
/-! The timer stage in a whole cycle (60 R164, R165, 40 R85): it starts from the timers stage 3 left. -/

namespace Sys2Proof.Machine

theorem delayAfter_of_ne (i : Instr) (s : State) (h : ∀ x, i ≠ .ldDTVx x) : delayAfter i s = s.DT := by
  cases i with
  | ldDTVx x => exact absurd rfl (h x)
  | _ => rfl

theorem soundAfter_of_ne (i : Instr) (s : State) (h : ∀ x, i ≠ .ldSTVx x) : soundAfter i s = s.ST := by
  cases i with
  | ldSTVx x => exact absurd rfl (h x)
  | _ => rfl

theorem delayAfter_beginExecute (i : Instr) (s : State) (w : Word) :
    delayAfter i (s.beginExecute w) = delayAfter i s := by
  cases i with
  | ldDTVx x => exact s.reg_beginExecute w x
  | _ => exact s.beginExecute_DT w

theorem soundAfter_beginExecute (i : Instr) (s : State) (w : Word) :
    soundAfter i (s.beginExecute w) = soundAfter i s := by
  cases i with
  | ldSTVx x => exact s.reg_beginExecute w x
  | _ => exact s.beginExecute_ST w

/-- `t` has the timers and the tone of a cycle whose stage 3 left the timers `d` and `v`. -/
abbrev TickedFrom (d v : Byte) (t : State) : Prop :=
  t.DT.toNat = d.toNat - 1 ∧ t.ST.toNat = v.toNat - 1 ∧ t.tone = (v == 1)

theorem State.tickedFrom_timerStage (s : State) : TickedFrom s.DT s.ST s.timerStage :=
  ⟨s.timerStage_DT_toNat, s.timerStage_ST_toNat, s.timerStage_tone⟩

theorem step_unknown_ticks (s t : State) (w : Word) (e : NotAnInstr) (hr : s.Running) (hw : s.fetchWord = some w)
    (hd : decode s.cfg w = .error e) (hstep : step s = .next t) : TickedFrom s.DT s.ST t := by
  obtain rfl := Host.Outcome.next.inj ((step_unknown s w e hr hw hd).symm.trans hstep)
  simpa using ((s.beginExecute w).reportUnknown w).tickedFrom_timerStage

/-- A cycle that commits without a fault ran a stage 3 that completed. -/
theorem step_instr_ticks (s t : State) (w : Word) (i : Instr) (hr : s.Running) (hw : s.fetchWord = some w)
    (hd : decode s.cfg w = .ok i) (hstep : step s = .next t) (ht : t.fault = false) :
    TickedFrom (delayAfter i s) (soundAfter i s) t := by
  obtain ⟨u, hu, hcases⟩ := exec_raisesOrCompletes i (s.beginExecute w)
  rw [step_instr s w i hr hw hd, hu] at hstep
  obtain rfl : s.commit u = t := Host.Outcome.next.inj hstep
  rcases hcases with ⟨_, _, _, rfl⟩ | hdone
  · simp [s.commit_of_fault] at ht
  · have hrunning : u.fault = false := by rw [hdone.fault, State.beginExecute_fault, hr.1]
    rw [s.commit_of_running u hrunning, ← delayAfter_beginExecute i s w, ← soundAfter_beginExecute i s w, ← hdone.DT,
      ← hdone.ST]
    exact u.tickedFrom_timerStage

/-- Settles O21: the timers tick from what stage 3 left, which for an unknown word, and for an instruction other than
the timer's own writer, is the timer as it was. -/
theorem timersTickOncePerCycle : Obligations.TimersTickOncePerCycle := by
  intro s t w hr hw hstep ht
  cases hd : decode s.cfg w with
  | error e =>
    obtain ⟨hDT, hsound⟩ := step_unknown_ticks s t w e hr hw hd hstep
    exact ⟨fun _ => hDT, fun _ => hsound, nofun, nofun⟩
  | ok i =>
    obtain ⟨hDT, hsound⟩ := step_instr_ticks s t w i hr hw hd hstep ht
    refine ⟨?delayKept, ?soundKept, ?delaySet, ?soundSet⟩
    case delayKept =>
      intro hi
      rwa [delayAfter_of_ne i s fun x hx => hi x (congrArg _ hx)] at hDT
    case soundKept =>
      intro hi
      rwa [soundAfter_of_ne i s fun x hx => hi x (congrArg _ hx)] at hsound
    case delaySet => rintro x ⟨⟩; exact hDT
    case soundSet => rintro x ⟨⟩; exact hsound

end Sys2Proof.Machine
end

section
/-! The decoder and the encoder are inverse (30_encoding R60 to R65): a word that decodes is put together from the
fields read, and the mask and match columns pick out the words of a row. -/

namespace Sys2Proof

theorem wordOfBytes_extract (w : Word) : wordOfBytes (w.extractLsb' 8 8) (w.extractLsb' 0 8) = w := by
  apply BitVec.eq_of_toNat_eq
  rw [wordOfBytes, append_toNat, BitVec.extractLsb'_toNat, BitVec.extractLsb'_toNat, Nat.shiftRight_eq_div_pow]
  omega

/-- The decoder is a left inverse of the encoder, so the encoder is injective. -/
theorem encode_injective_of_wellFormed (c : Config) (i j : Instr) (hi : i.wellFormed c = true)
    (hj : j.wellFormed c = true) (h : encode j = encode i) : j = i := by
  have hij : Except.ok j = Except.ok (ε := NotAnInstr) i := by
    rw [← decode_encode_of_wellFormed c j hj, h, decode_encode_of_wellFormed c i hi]
  exact Except.ok.inj hij

/-- Settles O10: the word is decoded by its fields; the two bytes make that word; and decoding takes the word of any
other instruction back to it. -/
theorem decodeOfEncodeIsTheInstruction : Obligations.DecodeOfEncodeIsTheInstruction := by
  intro c i hi
  refine ⟨decode_encode_of_wellFormed c i hi, ?bytes, fun j hj => encode_injective_of_wellFormed c i j hi hj⟩
  case bytes =>
    intro rest
    simp only [encodeBytes, List.cons_append, List.nil_append, decodeBytes, wordOfBytes_extract,
      decode_encode_of_wellFormed c i hi]

/-! ### A word of a family, from its other fields -/

theorem wordA_eq {w : Word} {op : Nibble} (h : opField w = op) : wordA op (nnnField w) = w := h ▸ wordA_fields w

theorem wordXI_eq {w : Word} {op : Nibble} {nn : Byte} (h : opField w = op) (hnn : nnField w = nn) :
    wordXI op (xField w) nn = w := h ▸ hnn ▸ wordXI_fields w

theorem wordXYN_eq {w : Word} {op n : Nibble} (h : opField w = op) (hn : nField w = n) :
    wordXYN op (xField w) (yField w) n = w := h ▸ hn ▸ wordXYN_fields w

theorem decodeFamily0_ok (c : Config) {w : Word} {i : Instr} (h : decodeFamily0 w = .ok i) :
    encode i = w ∧ i.wellFormed c = true := by
  unfold decodeFamily0 at h
  split at h <;> cases h <;> exact ⟨rfl, rfl⟩

theorem decodeFamily8_ok (c : Config) {w : Word} {i : Instr} (hop : opField w = 0x8)
    (h : decodeFamily8 w = .ok i) : encode i = w ∧ i.wellFormed c = true := by
  unfold decodeFamily8 at h
  split at h <;> cases h <;> exact ⟨wordXYN_eq hop ‹_›, rfl⟩

theorem decodeFamilyE_ok (c : Config) {w : Word} {i : Instr} (hop : opField w = 0xE)
    (h : decodeFamilyE w = .ok i) : encode i = w ∧ i.wellFormed c = true := by
  unfold decodeFamilyE at h
  split at h <;> cases h <;> exact ⟨wordXI_eq hop ‹_›, rfl⟩

theorem decodeFamilyF_ok (c : Config) {w : Word} {i : Instr} (hop : opField w = 0xF)
    (h : decodeFamilyF w = .ok i) : encode i = w ∧ i.wellFormed c = true := by
  unfold decodeFamilyF at h
  split at h <;> cases h <;> exact ⟨wordXI_eq hop ‹_›, rfl⟩

theorem decodeFamilyC_ok {c : Config} {w : Word} {i : Instr} (hop : opField w = 0xC)
    (h : decodeFamilyC c w = .ok i) : encode i = w ∧ i.wellFormed c = true := by
  unfold decodeFamilyC at h
  split at h
  · next hmode => cases h; exact ⟨wordXI_eq hop rfl, beq_iff_eq.mpr hmode⟩
  · cases h

end Sys2Proof
end

section
/-! The families of the decoder (30_encoding R66, R67), one equation each and one case split over the top nibble. -/

namespace Sys2Proof

theorem decode_family0 (c : Config) {w : Word} (h : opField w = 0x0) : decode c w = decodeFamily0 w := by
  simp [decode, h]

theorem decode_family8 (c : Config) {w : Word} (h : opField w = 0x8) : decode c w = decodeFamily8 w := by
  simp [decode, h]

theorem decode_familyC (c : Config) {w : Word} (h : opField w = 0xC) : decode c w = decodeFamilyC c w := by
  simp [decode, h]

theorem decode_familyE (c : Config) {w : Word} (h : opField w = 0xE) : decode c w = decodeFamilyE w := by
  simp [decode, h]

theorem decode_familyF (c : Config) {w : Word} (h : opField w = 0xF) : decode c w = decodeFamilyF w := by
  simp [decode, h]

/-- The five families that hold unknown words, and the eleven whose every word is an instruction. -/
inductive DecodeCases (c : Config) (w : Word) : Prop where
  | family0 (h : opField w = 0x0)
  | family8 (h : opField w = 0x8)
  | familyC (h : opField w = 0xC)
  | familyE (h : opField w = 0xE)
  | familyF (h : opField w = 0xF)
  | whole (i : Instr) (hd : decode c w = .ok i) (he : encode i = w) (hi : i.wellFormed c = true)

theorem decode_cases (c : Config) (w : Word) : DecodeCases c w := by
  have hd := decode.eq_def c w
  split at hd
  case h_1 hop => exact .family0 hop
  case h_9 hop => exact .family8 hop
  case h_13 hop => exact .familyC hop
  case h_15 hop => exact .familyE hop
  case h_2 hop | h_3 hop | h_11 hop | h_12 hop => exact .whole _ hd (wordA_eq hop) rfl
  case h_4 hop | h_5 hop | h_7 hop | h_8 hop => exact .whole _ hd (wordXI_eq hop rfl) rfl
  case h_6 hop | h_10 hop | h_14 hop => exact .whole _ hd (wordXYN_eq hop rfl) rfl
  case h_16 =>
    refine .familyF (BitVec.eq_of_toNat_eq (y := 0xF#4) ?_)
    have := (opField w).isLt
    simp only [imp_false, ← BitVec.toNat_inj, BitVec.toNat_ofNat] at *
    omega

/-- Settles O11: in each family the word is put together from the fields the decoder read. -/
theorem encodeOfDecodeIsTheWord : Obligations.EncodeOfDecodeIsTheWord := by
  intro c w i h
  cases decode_cases c w with
  | family0 hop => exact decodeFamily0_ok c (decode_family0 c hop ▸ h)
  | family8 hop => exact decodeFamily8_ok c hop (decode_family8 c hop ▸ h)
  | familyC hop => exact decodeFamilyC_ok hop (decode_familyC c hop ▸ h)
  | familyE hop => exact decodeFamilyE_ok c hop (decode_familyE c hop ▸ h)
  | familyF hop => exact decodeFamilyF_ok c hop (decode_familyF c hop ▸ h)
  | whole j hd he hj =>
    obtain rfl : j = i := Except.ok.inj (hd.symm.trans h)
    exact ⟨he, hj⟩

theorem decode_error_iff (c : Config) (w : Word) (e : NotAnInstr) : decode c w = .error e ↔
    (opField w = 0x0 ∧ decodeFamily0 w = .error e) ∨ (opField w = 0x8 ∧ decodeFamily8 w = .error e) ∨
    (opField w = 0xC ∧ decodeFamilyC c w = .error e) ∨ (opField w = 0xE ∧ decodeFamilyE w = .error e) ∨
    (opField w = 0xF ∧ decodeFamilyF w = .error e) := by
  cases decode_cases c w with
  | family0 hop => simp [decode_family0 c hop, hop]
  | family8 hop => simp [decode_family8 c hop, hop]
  | familyC hop => simp [decode_familyC c hop, hop]
  | familyE hop => simp [decode_familyE c hop, hop]
  | familyF hop => simp [decode_familyF c hop, hop]
  | whole j hd he hj =>
    constructor
    · simp [hd]
    · rintro (⟨hop, h⟩ | ⟨hop, h⟩ | ⟨hop, h⟩ | ⟨hop, h⟩ | ⟨hop, h⟩)
      · simp [decode_family0 c hop, h] at hd
      · simp [decode_family8 c hop, h] at hd
      · simp [decode_familyC c hop, h] at hd
      · simp [decode_familyE c hop, h] at hd
      · simp [decode_familyF c hop, h] at hd

theorem decodeFamily0_error_iff (w : Word) (e : NotAnInstr) :
    decodeFamily0 w = .error e ↔ e = .unknownFamily0 ∧ w ≠ 0x00E0 ∧ w ≠ 0x00EE := by
  unfold decodeFamily0
  split <;> simp_all [eq_comm]

theorem decodeFamily8_error_iff (w : Word) (e : NotAnInstr) : decodeFamily8 w = .error e ↔
    e = .unknownFamily8 ∧ nField w ∉ [0x0#4, 0x1#4, 0x2#4, 0x3#4, 0x4#4, 0x5#4, 0x6#4, 0x7#4, 0xE#4] := by
  unfold decodeFamily8
  split <;> simp_all [eq_comm]

theorem decodeFamilyE_error_iff (w : Word) (e : NotAnInstr) :
    decodeFamilyE w = .error e ↔ e = .unknownFamilyE ∧ nnField w ∉ [0x9E#8, 0xA1#8] := by
  unfold decodeFamilyE
  split <;> simp_all [eq_comm]

theorem decodeFamilyF_error_iff (w : Word) (e : NotAnInstr) : decodeFamilyF w = .error e ↔ e = .unknownFamilyF ∧
    nnField w ∉ [0x07#8, 0x0A#8, 0x15#8, 0x18#8, 0x1E#8, 0x29#8, 0x33#8, 0x55#8, 0x65#8] := by
  unfold decodeFamilyF
  split <;> simp_all [eq_comm]

theorem decodeFamilyC_error_iff (c : Config) (w : Word) (e : NotAnInstr) :
    decodeFamilyC c w = .error e ↔ e = .unknownFamilyC ∧ c.rndMode = .unknown := by
  unfold decodeFamilyC
  cases c.rndMode <;> simp [eq_comm]

/-- The nibbles that select no member of family 0x8. -/
theorem nibble_unselected_iff (n : Nibble) :
    n ∉ [0x0#4, 0x1#4, 0x2#4, 0x3#4, 0x4#4, 0x5#4, 0x6#4, 0x7#4, 0xE#4] ↔
      n ∈ [0x8#4, 0x9#4, 0xA#4, 0xB#4, 0xC#4, 0xD#4, 0xF#4] := by
  revert n; decide

/-- Settles O13: a word is rejected by its family, and each family by its own class alone. -/
theorem unknownWordsAreExactlyTheFiveClasses : Obligations.UnknownWordsAreExactlyTheFiveClasses := by
  intro c w
  simp only [decode_error_iff, decodeFamily0_error_iff, decodeFamily8_error_iff, decodeFamilyC_error_iff,
    decodeFamilyE_error_iff, decodeFamilyF_error_iff, nibble_unselected_iff, reduceCtorEq, false_and, and_false,
    true_and, or_false, false_or, iff_self, ne_eq, not_false_eq_true, and_self]
end Sys2Proof
end

section
/-! The mask and match columns of the opcode map (30_encoding R65): they read the fixed fields of a word, so a word they
select is the encoding of its row's instruction with the word's own operands. -/

namespace Sys2Proof

theorem opField_eq_of_and_F000 {v w : Word} (h : w &&& 0xF000#16 = v &&& 0xF000#16) : opField w = opField v := by
  simpa only [and_F000, opField_wordA] using congrArg opField h

theorem fields_eq_of_and_F00F {v w : Word} (h : w &&& 0xF00F#16 = v &&& 0xF00F#16) :
    opField w = opField v ∧ nField w = nField v := by
  rw [and_F00F, and_F00F] at h
  exact ⟨by simpa only [opField_wordXYN] using congrArg opField h,
    by simpa only [nField_wordXYN] using congrArg nField h⟩

theorem fields_eq_of_and_F0FF {v w : Word} (h : w &&& 0xF0FF#16 = v &&& 0xF0FF#16) :
    opField w = opField v ∧ nnField w = nnField v := by
  rw [and_F0FF, and_F0FF] at h
  exact ⟨by simpa only [opField_wordXI] using congrArg opField h,
    by simpa only [nnField_wordXI] using congrArg nnField h⟩

/-- The instruction of the same row whose operands are the fields of `w`. -/
def Instr.withFields (w : Word) : Instr → Instr
  | .cls => .cls
  | .ret => .ret
  | .jp _ => .jp (nnnField w)
  | .call _ => .call (nnnField w)
  | .seImm _ _ => .seImm (xField w) (nnField w)
  | .sneImm _ _ => .sneImm (xField w) (nnField w)
  | .seReg _ _ _ => .seReg (xField w) (yField w) (nField w)
  | .ldImm _ _ => .ldImm (xField w) (nnField w)
  | .addImm _ _ => .addImm (xField w) (nnField w)
  | .ldReg _ _ => .ldReg (xField w) (yField w)
  | .orReg _ _ => .orReg (xField w) (yField w)
  | .andReg _ _ => .andReg (xField w) (yField w)
  | .xorReg _ _ => .xorReg (xField w) (yField w)
  | .addReg _ _ => .addReg (xField w) (yField w)
  | .subReg _ _ => .subReg (xField w) (yField w)
  | .shr _ _ => .shr (xField w) (yField w)
  | .subnReg _ _ => .subnReg (xField w) (yField w)
  | .shl _ _ => .shl (xField w) (yField w)
  | .sneReg _ _ _ => .sneReg (xField w) (yField w) (nField w)
  | .ldI _ => .ldI (nnnField w)
  | .jpV0 _ => .jpV0 (nnnField w)
  | .rnd _ _ => .rnd (xField w) (nnField w)
  | .drw _ _ _ => .drw (xField w) (yField w) (nField w)
  | .skp _ => .skp (xField w)
  | .sknp _ => .sknp (xField w)
  | .ldVxDT _ => .ldVxDT (xField w)
  | .ldVxK _ => .ldVxK (xField w)
  | .ldDTVx _ => .ldDTVx (xField w)
  | .ldSTVx _ => .ldSTVx (xField w)
  | .addI _ => .addI (xField w)
  | .ldF _ => .ldF (xField w)
  | .ldB _ => .ldB (xField w)
  | .storeRegs _ => .storeRegs (xField w)
  | .loadRegs _ => .loadRegs (xField w)

theorem opMatch_withFields (w : Word) (i : Instr) : opMatch (i.withFields w) = opMatch i := by cases i <;> rfl

theorem opMask_withFields (w : Word) (i : Instr) : opMask (i.withFields w) = opMask i := by cases i <;> rfl

theorem wellFormed_withFields (c : Config) (w : Word) (i : Instr) :
    (i.withFields w).wellFormed c = i.wellFormed c := by cases i <;> rfl

/-- The per-instruction family `Laws.RowBits`, as one statement over the instruction. -/
theorem rowBits (i : Instr) : encode i &&& opMask i = opMatch i := by
  cases i with
  | cls => exact Laws.RowBits.cls
  | ret => exact Laws.RowBits.ret
  | jp nnn => exact Laws.RowBits.jp nnn
  | call nnn => exact Laws.RowBits.call nnn
  | seImm x nn => exact Laws.RowBits.seImm x nn
  | sneImm x nn => exact Laws.RowBits.sneImm x nn
  | seReg x y n => exact Laws.RowBits.seReg x y n
  | ldImm x nn => exact Laws.RowBits.ldImm x nn
  | addImm x nn => exact Laws.RowBits.addImm x nn
  | ldReg x y => exact Laws.RowBits.ldReg x y
  | orReg x y => exact Laws.RowBits.orReg x y
  | andReg x y => exact Laws.RowBits.andReg x y
  | xorReg x y => exact Laws.RowBits.xorReg x y
  | addReg x y => exact Laws.RowBits.addReg x y
  | subReg x y => exact Laws.RowBits.subReg x y
  | shr x y => exact Laws.RowBits.shr x y
  | subnReg x y => exact Laws.RowBits.subnReg x y
  | shl x y => exact Laws.RowBits.shl x y
  | sneReg x y n => exact Laws.RowBits.sneReg x y n
  | ldI nnn => exact Laws.RowBits.ldI nnn
  | jpV0 nnn => exact Laws.RowBits.jpV0 nnn
  | rnd x nn => exact Laws.RowBits.rnd x nn
  | drw x y n => exact Laws.RowBits.drw x y n
  | skp x => exact Laws.RowBits.skp x
  | sknp x => exact Laws.RowBits.sknp x
  | ldVxDT x => exact Laws.RowBits.ldVxDT x
  | ldVxK x => exact Laws.RowBits.ldVxK x
  | ldDTVx x => exact Laws.RowBits.ldDTVx x
  | ldSTVx x => exact Laws.RowBits.ldSTVx x
  | addI x => exact Laws.RowBits.addI x
  | ldF x => exact Laws.RowBits.ldF x
  | ldB x => exact Laws.RowBits.ldB x
  | storeRegs x => exact Laws.RowBits.storeRegs x
  | loadRegs x => exact Laws.RowBits.loadRegs x

/-- A selected word has the fixed fields of its row's words, so its other fields are all that is left to read. -/
theorem encode_withFields_of_match (w : Word) (i : Instr) (h : w &&& opMask i = opMatch i) :
    encode (i.withFields w) = w := by
  rw [← rowBits i] at h
  cases i with
  | cls | ret => exact h.symm.trans BitVec.and_allOnes
  | jp | call | ldI | jpV0 => exact wordA_eq ((opField_eq_of_and_F000 h).trans (opField_wordA _ _))
  | seImm | sneImm | ldImm | addImm | rnd =>
    exact wordXI_eq ((opField_eq_of_and_F000 h).trans (opField_wordXI _ _ _)) rfl
  | seReg | sneReg | drw => exact wordXYN_eq ((opField_eq_of_and_F000 h).trans (opField_wordXYN _ _ _ _)) rfl
  | ldReg | orReg | andReg | xorReg | addReg | subReg | shr | subnReg | shl =>
    obtain ⟨hop, hn⟩ := fields_eq_of_and_F00F h
    exact wordXYN_eq (hop.trans (opField_wordXYN _ _ _ _)) (hn.trans (nField_wordXYN _ _ _ _))
  | skp | sknp | ldVxDT | ldVxK | ldDTVx | ldSTVx | addI | ldF | ldB | storeRegs | loadRegs =>
    obtain ⟨hop, hnn⟩ := fields_eq_of_and_F0FF h
    exact wordXI_eq (hop.trans (opField_wordXI _ _ _)) (hnn.trans (nnField_wordXI _ _ _))

/-- Settles O12: a selected word is the encoding of its row with the word's fields; a word that decodes to the row
carries the row's fixed bits. -/
theorem opcodeMapRowsSelectByMaskAndMatch : Obligations.OpcodeMapRowsSelectByMaskAndMatch := by
  intro c w i hi
  constructor
  · intro h
    have hd := decode_encode_of_wellFormed c (i.withFields w) ((wellFormed_withFields c w i).trans hi)
    rw [encode_withFields_of_match w i h] at hd
    exact ⟨i.withFields w, hd, opMatch_withFields w i, opMask_withFields w i⟩
  · rintro ⟨j, hd, hmatch, hmask⟩
    obtain ⟨rfl, -⟩ := encodeOfDecodeIsTheWord c w j hd
    rw [← hmask, ← hmatch]
    exact rowBits j

end Sys2Proof
end

section
/-! Everything stage 3 can do (40 R83): the one inversion of `exec`, by the write an instruction makes. The frames of
10_state, 20_memory and 43_display over all instructions are read off it. -/

namespace Sys2Proof.Machine

/-- What stage 3 of an instruction leaves of `s`: the latched fault of the table, or the one write of its meaning. A new
`pc` is bounded for a `pc` that a fetch has advanced. -/
inductive Effect (s : State) : Instr → State → Prop where
  | fault {i : Instr} {code : BitVec 3} {info : Word} (h : TableFault s i code info) :
      Effect s i (Latched s code info)
  | regs {i : Instr} (v : Vector Byte 16) (hv : SameRegsBut (MayWriteReg i) s (s.setRegs v)) :
      Effect s i (s.setRegs v)
  | drawnReg {i : Instr} {x : Reg} (v : Byte) (hx : MayWriteReg i x) : Effect s i (s.setReg x v).countDraw
  | report (x : Reg) (nn : Byte) (hmode : s.cfg.rndMode = .unknown) :
      Effect s (.rnd x nn) (s.reportUnknown (encode (.rnd x nn)))
  | jump {i : Instr} (w : Word) (hi : MayWritePc i)
      (hw : 2 ≤ s.pc.toNat → s.pc.toNat ≤ 0x1000 → w.toNat ≤ 0x10FE) : Effect s i (s.setPc w)
  | call (nnn : Addr12) (h : s.sp.val < 16) : Effect s (.call nnn)
      { s with pc := zextAddr nnn, sp := ⟨s.sp.val + 1, by omega⟩, stack := s.stack.set s.sp.val s.pc }
  | ret (k : Fin 16) (h : s.sp.val = k.val + 1) : Effect s .ret { s with pc := s.stack[k], sp := k.castSucc }
  | clear : Effect s .cls (s.setDisp clearDisplay)
  | draw (x y : Reg) (n : Nibble) : Effect s (.drw x y n) (s.drawn x y n)
  | index {i : Instr} (w : Word) (hi : (∃ nnn, i = .ldI nnn) ∨ (∃ x, i = .addI x) ∨ ∃ x, i = .ldF x) :
      Effect s i (s.setI w)
  | delay (x : Reg) : Effect s (.ldDTVx x) (s.setDT (s.reg x))
  | sound (x : Reg) : Effect s (.ldSTVx x) (s.setST (s.reg x))
  | mem {i : Instr} (m : Memory) (hm : SameBytesBut (StoresTo i s) s { s with mem := m })
      (hwf : Memory.wf s.cfg s.mem → Memory.wf s.cfg m) : Effect s i { s with mem := m }

/-! ### The effects of the shared operations -/

theorem SameRegsBut.mono {p q : Reg → Prop} {s t : State} (h : SameRegsBut p s t) (hpq : ∀ r, p r → q r) :
    SameRegsBut q s t := fun r hr => h r (mt (hpq r) hr)

theorem Effect.setReg {s : State} {i : Instr} {x : Reg} (v : Byte) (hx : MayWriteReg i x) :
    Effect s i (s.setReg x v) :=
  .regs _ ((s.sameRegsBut_setReg x v).mono fun _ hr => hr ▸ hx)

theorem Effect.setResultFlag {s : State} {i : Instr} {x : Reg} (v f : Byte)
    (hi : ∀ r, r = x ∨ r = VF → MayWriteReg i r) : Effect s i (s.setResultFlag x v f) :=
  .regs _ ((s.sameRegsBut_setResultFlag x v f).mono hi)

theorem Effect.storeBytes {s : State} {i : Instr} (vs : List Byte) (hend : s.I.toNat + vs.length ≤ lastAddr + 1)
    (hto : ∀ a, s.I.toNat ≤ a ∧ a < s.I.toNat + vs.length → StoresTo i s a) :
    Effect s i (s.storeBytes s.I.toNat vs) := by
  have hm : SameBytesBut (StoresTo i s) s (s.storeBytes s.I.toNat vs) := fun a ha =>
    s.readByte_storeBytes_outside _ vs a (mt (hto a) ha)
  rw [s.storeBytes_eq] at hm ⊢
  exact .mem _ hm (s.storeBytes_wf _ vs hend)

/-- A skip is a jump, to the advanced `pc` or to the word after it. -/
theorem Effect.skip {s : State} {i : Instr} (b : Bool) (hi : MayWritePc i) : Effect s i (s.skipIf b) := by
  cases b with
  | false => exact .jump s.pc hi (by omega)
  | true =>
    exact .jump (s.pc + 2) hi fun _ hle => by bv_omega

theorem TableFault.exec_effect {s : State} {i : Instr} {code : BitVec 3} {info : Word}
    (h : TableFault s i code info) : ∃ t, exec i s = .next t ∧ Effect s i t := ⟨_, h.exec_eq, .fault h⟩

/-- The four instructions that access memory: the range check raises, or lets the meaning through. -/
theorem exec_guardAccess_effect (i : Instr) (s u : State)
    (he : exec i s = .next (s.guardAccess (dataBytes i) u)) (hu : ¬ AccessLeavesMemory i s → Effect s i u) :
    ∃ t, exec i s = .next t ∧ Effect s i t := by
  rcases s.guardAccess_cases u (dataBytes i) with ⟨hin, heq⟩ | ⟨hout, _⟩
  · exact ⟨u, by rw [he, heq], hu hin⟩
  · exact (TableFault.accessOutside hout).exec_effect

theorem exec_keySkip_effect (i : Instr) (s : State) (x : Reg) (hi : i = .skp x ∨ i = .sknp x) :
    ∃ t, exec i s = .next t ∧ Effect s i t := by
  by_cases habove : (s.reg x).toNat > 15
  · exact (TableFault.keyAbove hi habove).exec_effect
  · have hkey : (s.reg x).toNat < 16 := by omega
    rcases hi with rfl | rfl
    · exact ⟨_, exec_skp_of_key s x ⟨_, hkey⟩ rfl, .skip _ trivial⟩
    · exact ⟨_, exec_sknp_of_key s x ⟨_, hkey⟩ rfl, .skip _ trivial⟩

theorem exec_ldVxK_of_nil (s : State) (x : Reg) (h : s.heldKeys = []) :
    exec (.ldVxK x) s = .next (s.setPc (s.pc - 2)) := by
  simp only [exec, execLdVxK, h]

theorem exec_ldVxK_of_cons (s : State) (x k : Reg) (ks : List Reg) (h : s.heldKeys = k :: ks) :
    exec (.ldVxK x) s = .next (s.setReg x (BitVec.ofNat 8 (s.chooseKey k ks).val)).countDraw := by
  simp only [exec, execLdVxK, h]

theorem exec_rnd_maskedDraw (s : State) (x : Reg) (nn : Byte) (h : s.cfg.rndMode = .maskedDraw) :
    exec (.rnd x nn) s = .next (s.maskedDraw x nn (Config.freeByte s.draws)) := by
  simp only [exec, execRnd, h]

theorem exec_rnd_unknown (s : State) (x : Reg) (nn : Byte) (h : s.cfg.rndMode = .unknown) :
    exec (.rnd x nn) s = .next (s.reportUnknown (encode (.rnd x nn))) := by
  simp only [exec, execRnd, h]

theorem exec_effect (i : Instr) (s : State) : ∃ t, exec i s = .next t ∧ Effect s i t := by
  cases i with
  | ldImm | addImm | ldReg | orReg | andReg | xorReg | ldVxDT => exact ⟨_, rfl, .setReg _ rfl⟩
  | addReg | subReg | shr | subnReg | shl => exact ⟨_, rfl, .setResultFlag _ _ fun _ => id⟩
  | seImm | sneImm | seReg | sneReg => exact ⟨_, rfl, .skip _ trivial⟩
  | skp x => exact exec_keySkip_effect _ s x (.inl rfl)
  | sknp x => exact exec_keySkip_effect _ s x (.inr rfl)
  | cls => exact ⟨_, rfl, .clear⟩
  | ldDTVx x => exact ⟨_, rfl, .delay x⟩
  | ldSTVx x => exact ⟨_, rfl, .sound x⟩
  | ldI nnn => exact ⟨_, rfl, .index _ (.inl ⟨nnn, rfl⟩)⟩
  | addI x => exact ⟨_, rfl, .index _ (.inr (.inl ⟨x, rfl⟩))⟩
  | ldF x => exact ⟨_, rfl, .index _ (.inr (.inr ⟨x, rfl⟩))⟩
  | jp nnn =>
    refine ⟨_, rfl, .jump _ trivial fun _ _ => ?_⟩
    rw [zextAddr_toNat]
    omega
  | jpV0 nnn =>
    refine ⟨_, rfl, .jump _ trivial fun _ _ => ?_⟩
    rw [zextAddr_add_zextByte_toNat]
    omega
  | call nnn =>
    rcases s.pushPc_cases with ⟨hroom, _⟩ | ⟨hfull, _⟩
    · exact ⟨_, exec_call_of_lt s nnn hroom, .call nnn hroom⟩
    · exact (TableFault.callFull hfull).exec_effect
  | ret =>
    rcases s.sp.eq_zero_or_eq_succ with hempty | ⟨k, hk⟩
    · exact (TableFault.retEmpty hempty).exec_effect
    · have hsp : s.sp.val = k.val + 1 := congrArg Fin.val hk
      exact ⟨_, exec_ret_of_succ s k hsp, .ret k hsp⟩
  | ldVxK x =>
    cases hheld : s.heldKeys with
    | nil => exact ⟨_, exec_ldVxK_of_nil s x hheld, .jump _ trivial fun _ _ => by bv_omega⟩
    | cons k ks => exact ⟨_, exec_ldVxK_of_cons s x k ks hheld, .drawnReg _ rfl⟩
  | rnd x nn =>
    cases hmode : s.cfg.rndMode with
    | maskedDraw => exact ⟨_, exec_rnd_maskedDraw s x nn hmode, .drawnReg _ rfl⟩
    | unknown => exact ⟨_, exec_rnd_unknown s x nn hmode, .report x nn hmode⟩
  | drw x y n => exact exec_guardAccess_effect _ s _ rfl fun _ => .draw x y n
  | loadRegs x => exact exec_guardAccess_effect _ s _ rfl fun _ => .regs _ (s.sameRegsBut_loadRegsUpTo x)
  | ldB x =>
    refine exec_guardAccess_effect _ s _ rfl fun hin => .storeBytes _ ?_ fun a ha => ⟨hin, ha⟩
    simp only [AccessLeavesMemory, dataBytes] at hin
    simp only [bcdDigits, List.length_cons, List.length_nil, lastAddr]
    omega
  | storeRegs x =>
    refine exec_guardAccess_effect _ s _ rfl fun hin => .storeBytes _ ?_ fun a ha => ⟨hin, ?_⟩
    · simp only [AccessLeavesMemory, dataBytes] at hin
      simp only [State.regsUpTo_length, lastAddr]
      omega
    · rwa [State.regsUpTo_length] at ha

theorem effect_of_exec {i : Instr} {s t : State} (h : exec i s = .next t) : Effect s i t := by
  obtain ⟨u, hu, heff⟩ := exec_effect i s
  obtain rfl : u = t := Host.Outcome.next.inj (hu.symm.trans h)
  exact heff

end Sys2Proof.Machine
end

section
/-! The frames over all instructions (10_state R11 to R20, 20_memory R40, 43_display R120), read off the effects. -/

namespace Sys2Proof.Machine

/-- Settles O58: the effect of each instruction is a next state. -/
theorem everyInstructionAnswersANextState : Obligations.EveryInstructionAnswersANextState := by
  intro i s
  obtain ⟨t, ht, _⟩ := exec_effect i s
  exact ⟨t, ht⟩

/-- Settles O51: the five effects that write registers write the instruction's own. -/
theorem onlyDestinationRegistersChange : Obligations.OnlyDestinationRegistersChange := by
  intro i s t h
  cases effect_of_exec h with
  | regs v hv => exact hv
  | drawnReg v hx => exact (s.sameRegsBut_setReg _ v).mono fun _ hr => hr ▸ hx
  | draw x y n => exact s.sameRegsBut_drawn x y n
  | _ => exact fun _ _ => rfl

/-- Settles O52: the one effect that writes memory writes from `I` up, where the instruction stores. -/
theorem onlyStoredBytesChange : Obligations.OnlyStoredBytesChange := by
  intro i s t h a ha
  cases effect_of_exec h with
  | mem m hm => exact hm a ha
  | _ => rfl

/-- The cells a sprite toggles lie in the box of its rows and columns. -/
theorem mayWriteCell_of_toggles {s : State} {x y : Reg} {n : Nibble} {row col : Nat}
    (h : SpriteToggles s x y n row col) : MayWriteCell (.drw x y n) s row col := by
  obtain ⟨_, _, hrow, hrows, hcol, hcols, _⟩ := h
  exact ⟨hrow, hrows, hcol, by omega⟩

/-- Settles O53: 00E0 may write every cell, and a draw toggles cells of its box only. -/
theorem onlyClearAndDrawWriteTheDisplay : Obligations.OnlyClearAndDrawWriteTheDisplay := by
  intro i s t h row col hcell
  cases effect_of_exec h with
  | clear => exact absurd trivial hcell
  | draw x y n => exact s.drawn_cell_of_not_toggles x y n row col (mt mayWriteCell_of_toggles hcell)
  | _ => rfl

/-- Settles O54: a jump, call and return are the effects that write `pc`. -/
theorem onlyControlTransfersChangePc : Obligations.OnlyControlTransfersChangePc := by
  intro i s t h hi
  cases effect_of_exec h with
  | jump _ hjump => exact absurd hjump hi
  | call => exact absurd trivial hi
  | ret => exact absurd trivial hi
  | _ => rfl

/-- Settles O55: each of `I`, `sp`, the stack, DT and ST is written by the effects of its own instructions. -/
theorem specialRegistersHaveTheirOwnWriters : Obligations.SpecialRegistersHaveTheirOwnWriters := by
  intro i s t h
  cases effect_of_exec h with
  | index w hi =>
    refine ⟨fun hldI haddI hldF => ?_, fun _ _ => rfl, fun _ => rfl, fun _ => rfl, fun _ => rfl⟩
    rcases hi with ⟨nnn, rfl⟩ | ⟨x, rfl⟩ | ⟨x, rfl⟩
    · exact absurd rfl (hldI nnn)
    · exact absurd rfl (haddI x)
    · exact absurd rfl (hldF x)
  | call nnn =>
    exact ⟨fun _ _ _ => rfl, fun hcall _ => absurd rfl (hcall nnn), fun hcall => absurd rfl (hcall nnn),
      fun _ => rfl, fun _ => rfl⟩
  | ret => exact ⟨fun _ _ _ => rfl, fun _ hret => absurd rfl hret, fun _ => rfl, fun _ => rfl, fun _ => rfl⟩
  | delay x => exact ⟨fun _ _ _ => rfl, fun _ _ => rfl, fun _ => rfl, fun hDT => absurd rfl (hDT x), fun _ => rfl⟩
  | sound x => exact ⟨fun _ _ _ => rfl, fun _ _ => rfl, fun _ => rfl, fun _ => rfl, fun hST => absurd rfl (hST x)⟩
  | _ => exact ⟨fun _ _ _ => rfl, fun _ _ => rfl, fun _ => rfl, fun _ => rfl, fun _ => rfl⟩

theorem exec_sameOutside {i : Instr} {s t : State} (h : exec i s = .next t) : SameOutside s t := by
  cases effect_of_exec h with
  | _ => exact ⟨rfl, rfl, rfl, rfl, rfl, rfl⟩

theorem exec_keepsLatch {i : Instr} {s t : State} (h : exec i s = .next t) (ht : t.fault = false) :
    SameLatch s t ∧ t.tone = s.tone := by
  cases effect_of_exec h with
  | fault => cases ht
  | _ => exact ⟨⟨rfl, rfl, rfl⟩, rfl⟩

theorem exec_keepsReport {i : Instr} {s t : State} (h : exec i s = .next t) (ht : t.fault = false)
    (hi : (∀ x nn, i ≠ .rnd x nn) ∨ s.cfg.rndMode = .maskedDraw) : t.unknown = s.unknown := by
  cases effect_of_exec h with
  | fault => cases ht
  | report x nn hmode =>
    rcases hi with hi | hi
    · exact absurd rfl (hi x nn)
    · simp [hmode] at hi
  | _ => rfl

/-- Settles O56: no effect writes what lies outside; only the fault writes the latch and the tone, and only the report
of CXNN under RND_MODE = unknown the report. -/
theorem noInstructionWritesTheLatchOrTheOutside : Obligations.NoInstructionWritesTheLatchOrTheOutside := by
  intro i s t h
  refine ⟨exec_sameOutside h, fun _ ht => ?_⟩
  obtain ⟨hlatch, htone⟩ := exec_keepsLatch h ht
  exact ⟨hlatch, htone, exec_keepsReport h ht⟩

end Sys2Proof.Machine
end

section
/-! The host's actions (10_state R30 to R32, 20_memory R55 to R57) and what every step keeps (10_state R33, 40 R80 to
R86). -/

namespace Sys2Proof.Machine

/-! ### Reset and load -/

/-- Settles O2: the reset state lists no memory, so its bytes are the reset contents of the same parameters. -/
theorem hostResetRestoresTheResetState : Obligations.HostResetRestoresTheResetState :=
  fun _ => ⟨rfl, ⟨rfl, rfl⟩, fun _ => rfl⟩

theorem State.hostLoad_oversized (s : State) (image : List Byte) (hs : s.started = false) (hf : s.fault = false)
    (hlen : image.length > maxProg) : s.hostLoad image = .next { s with loadError := true } := by
  simp [State.hostLoad, hs, hf, hlen]

theorem State.hostLoad_refused (s : State) (image : List Byte) (h : s.started = true ∨ s.fault = true) :
    s.hostLoad image = .refused .loadAfterFirstCycle := by
  simp [State.hostLoad, h]

/-- A load that answers a state copies the image, or refuses it for its length. -/
theorem State.hostLoad_cases (s t : State) (image : List Byte) (h : s.hostLoad image = .next t) :
    (image.length ≤ maxProg ∧ t = s.storeBytes progBase image) ∨
    (s.started = false ∧ s.fault = false ∧ t = { s with loadError := true }) := by
  by_cases hrun : s.started = true ∨ s.fault = true
  · cases (s.hostLoad_refused image hrun).symm.trans h
  · obtain ⟨hs, hf⟩ : s.started = false ∧ s.fault = false := by simpa using hrun
    rcases Nat.lt_or_ge maxProg image.length with hlen | hlen
    · exact .inr ⟨hs, hf, Host.Outcome.next.inj (h.symm.trans (s.hostLoad_oversized image hs hf hlen))⟩
    · exact .inl ⟨hlen, Host.Outcome.next.inj (h.symm.trans (s.hostLoad_accepted image hs hf hlen))⟩

theorem step_loadError (s : State) (hf : s.fault = false) (hl : s.loadError = true) : step s = .fault .loadError := by
  simp [step, hf, hl]

/-- Settles O7: the oversized branch of the load, and the branch of the step that `load_error` selects. -/
theorem oversizedLoadIsRefusedAndNotStepped : Obligations.OversizedLoadIsRefusedAndNotStepped :=
  fun s image hs hf hlen => ⟨s.hostLoad_oversized image hs hf hlen, step_loadError _ hf rfl⟩

/-! ### The end of a cycle -/

/-- Everything a step of a running core can do: latch a fault, or commit a state that stage 3 left running. -/
inductive CycleCases (s : State) : State → Prop where
  | faulted (code : BitVec 3) (info : Word) (hlo : 1 ≤ code.toNat) (hhi : code.toNat ≤ 5) :
      CycleCases s (Latched s code info)
  | executed (w : Word) (i : Instr) (u : State) (hpc : s.pc.toNat ≤ 0xFFE) (hw : s.fetchWord = some w)
      (hd : decode s.cfg w = .ok i) (he : exec i (s.beginExecute w) = .next u) (hu : u.fault = false) :
      CycleCases s u.timerStage
  | unknown (w : Word) (e : NotAnInstr) (hpc : s.pc.toNat ≤ 0xFFE) (hw : s.fetchWord = some w)
      (hd : decode s.cfg w = .error e) : CycleCases s ((s.beginExecute w).reportUnknown w).timerStage

/-- The table's codes are 2 to 5; the fetch's is 1 (60 R151). -/
theorem TableFault.code_bounds {s : State} {i : Instr} {code : BitVec 3} {info : Word}
    (h : TableFault s i code info) : 1 ≤ code.toNat ∧ code.toNat ≤ 5 := by
  cases h <;> decide

theorem exec_fault_code_bounds {i : Instr} {s t : State} (h : exec i s = .next t) (hs : s.fault = false)
    (ht : t.fault = true) : 1 ≤ t.faultCode.toNat ∧ t.faultCode.toNat ≤ 5 := by
  cases effect_of_exec h with
  | fault hraised => exact hraised.code_bounds
  | _ => cases hs.symm.trans ht

theorem cycleCases_of_step {s t : State} (hr : s.Running) (h : step s = .next t) : CycleCases s t := by
  rcases step_cases s t h with
    ⟨hhalted, _⟩ | ⟨_, _, rfl⟩ | ⟨_, hpc, w, i, u, hw, hd, he, rfl⟩ | ⟨_, hpc, w, e, hw, hd, rfl⟩
  case inl => cases hr.1.symm.trans hhalted
  case inr.inl => exact .faulted 1 s.pc (by decide) (by decide)
  case inr.inr.inl =>
    cases hu : u.fault with
    | true =>
      obtain ⟨hlo, hhi⟩ := exec_fault_code_bounds he ((s.beginExecute_fault w).trans hr.1) hu
      rw [s.commit_of_fault u hu]
      exact .faulted u.faultCode u.faultInfo hlo hhi
    | false =>
      rw [s.commit_of_running u hu]
      exact .executed w i u hpc hw hd he hu
  case inr.inr.inr =>
    rw [s.commit_of_running ((s.beginExecute w).reportUnknown w) ((s.beginExecute_fault w).trans hr.1)]
    exact .unknown w e hpc hw hd

/-- A cycle that ends halted, or that ran to its end, refuses every later load. -/
theorem started_or_fault_of_step {s t : State} (hr : s.Running) (h : step s = .next t) :
    t.started = true ∨ t.fault = true := by
  cases cycleCases_of_step hr h with
  | faulted => exact .inr rfl
  | unknown => exact .inl rfl
  | executed w i u _ _ _ he =>
    obtain ⟨_, _, _, _, hstarted, _⟩ := exec_sameOutside he
    exact .inl hstarted

/-- Settles O8: the flag `started`, or the latch of a faulting cycle, refuses the load. -/
theorem loadAfterTheFirstCycleIsRefused : Obligations.LoadAfterTheFirstCycleIsRefused :=
  fun _ t image hr h => t.hostLoad_refused image (started_or_fault_of_step hr h)

/-! ### The invariant -/

/-- The live stack entries are addresses after a call, 2 to 0x1000 (10_state R33). -/
abbrev State.LiveStack (s : State) : Prop :=
  ∀ k : Fin 16, k.val < s.sp.val → 2 ≤ (s.stack[k]).toNat ∧ (s.stack[k]).toNat ≤ 0x1000

theorem Effect.keeps_wf {s t : State} {i : Instr} (h : Effect s i t) (hs : Memory.wf s.cfg s.mem) :
    Memory.wf t.cfg t.mem := by
  cases h with
  | mem m _ hwf => exact hwf hs
  | _ => exact hs

theorem Effect.pc_le {s t : State} {i : Instr} (h : Effect s i t) (hlo : 2 ≤ s.pc.toNat) (hhi : s.pc.toNat ≤ 0x1000)
    (hstack : s.LiveStack) : t.pc.toNat ≤ 0x10FE := by
  cases h with
  | jump w _ hw => exact hw hlo hhi
  | call nnn =>
    have := zextAddr_toNat nnn
    simp only [this]
    omega
  | ret k hk =>
    have := (hstack k (by omega)).2
    exact this.trans (by decide)
  | _ => exact hhi.trans (by decide)

theorem Effect.keeps_liveStack {s t : State} {i : Instr} (h : Effect s i t) (hlo : 2 ≤ s.pc.toNat)
    (hhi : s.pc.toNat ≤ 0x1000) (hstack : s.LiveStack) : t.LiveStack := by
  cases h with
  | call nnn hroom =>
    intro k hk
    by_cases htop : s.sp.val = k.val
    · simpa [htop] using And.intro hlo hhi
    · have hlive : k.val < s.sp.val := by simp only at hk; omega
      simpa [htop] using hstack k hlive
  | ret k hk => exact fun j hj => hstack j (by simp at hj; omega)
  | _ => exact hstack

theorem State.Inv.latched {s : State} (h : s.Inv) (hl : s.loadError = false) {code : BitVec 3} (info : Word)
    (hlo : 1 ≤ code.toNat) (hhi : code.toNat ≤ 5) : (Latched s code info).Inv := by
  obtain ⟨hmem, hpc, hstack, _, _, _⟩ := h
  exact ⟨hmem, hpc, hstack, nofun, fun _ => ⟨hlo, hhi, rfl, rfl⟩, fun he => by cases hl.symm.trans he⟩

/-- A state that stage 3 left running, with its memory, `pc` and stack in bounds, ends its cycle in the invariant. -/
theorem State.timerStage_inv {u : State} (hmem : Memory.wf u.cfg u.mem) (hpc : u.pc.toNat ≤ 0x10FE)
    (hstack : u.LiveStack) (hr : u.Running) (hlatch : u.faultCode = 0 ∧ u.faultInfo = 0) : u.timerStage.Inv :=
  ⟨hmem, hpc, hstack, fun _ => hlatch, fun hf => (by cases hr.1.symm.trans hf),
    fun hl => (by cases hr.2.symm.trans hl)⟩

theorem State.beginExecute_pc_bounds (s : State) (w : Word) (h : s.pc.toNat ≤ 0xFFE) :
    2 ≤ (s.beginExecute w).pc.toNat ∧ (s.beginExecute w).pc.toNat ≤ 0x1000 := by
  rw [State.beginExecute_pc]
  bv_omega

/-- Settles O3: after reset memory lists nothing and the stack is empty, so both conditions on entries are void. -/
theorem resetMeetsTheInvariant : Obligations.ResetMeetsTheInvariant :=
  fun _ => ⟨⟨.nil, nofun⟩, Nat.le_of_ble_eq_true rfl, nofun, fun _ => ⟨rfl, rfl⟩, nofun, nofun⟩

/-- Settles O5: reset has the memory, stack and latch of the reset state; a copied image ends at 0xFFF at most; a
refused one sets `load_error` before the first cycle. -/
theorem hostActionsKeepTheInvariant : Obligations.HostActionsKeepTheInvariant := by
  intro s h
  refine ⟨resetMeetsTheInvariant s.cfg, fun _ => h, fun image t hload => ?_⟩
  obtain ⟨hmem, hpc, hstack, hrunning, hhalted, hrefused⟩ := h
  rcases s.hostLoad_cases t image hload with ⟨hlen, rfl⟩ | ⟨hs, hf, rfl⟩
  · have hend : progBase + image.length ≤ lastAddr + 1 := by
      simp only [progBase, lastAddr, maxProg] at hlen ⊢
      omega
    have hmem' := s.storeBytes_wf progBase image hend hmem
    rw [s.storeBytes_eq]
    exact ⟨hmem', hpc, hstack, hrunning, hhalted, hrefused⟩
  · exact ⟨hmem, hpc, hstack, hrunning, hhalted, fun _ => ⟨hs, hf⟩⟩

theorem State.beginExecute_liveStack {s : State} (w : Word) (h : s.LiveStack) : (s.beginExecute w).LiveStack := by
  simpa [State.LiveStack] using h

theorem step_keeps_inv_of_running {s t : State} (hr : s.Running) (h : s.Inv) (hstep : step s = .next t) : t.Inv := by
  have ⟨hmem, _, hstack, hlatch, _, _⟩ := h
  cases cycleCases_of_step hr hstep with
  | faulted code info hlo hhi => exact h.latched hr.2 info hlo hhi
  | executed w i u hpc hw hd he hu =>
    have heff := effect_of_exec he
    have hstack' := State.beginExecute_liveStack w hstack
    obtain ⟨hlo, hhi⟩ := s.beginExecute_pc_bounds w hpc
    obtain ⟨⟨_, hcode, hinfo⟩, _⟩ := exec_keepsLatch he hu
    obtain ⟨_, _, hload, _⟩ := exec_sameOutside he
    rw [State.beginExecute_faultCode] at hcode
    rw [State.beginExecute_faultInfo] at hinfo
    rw [State.beginExecute_loadError, hr.2] at hload
    refine State.timerStage_inv (heff.keeps_wf ?_) (heff.pc_le hlo hhi hstack') (heff.keeps_liveStack hlo hhi hstack')
      ⟨hu, hload⟩ ?_
    · rwa [State.beginExecute_cfg, State.beginExecute_mem]
    · rw [hcode, hinfo]
      exact hlatch hr.1
  | unknown w e hpc =>
    obtain ⟨_, hhi⟩ := s.beginExecute_pc_bounds w hpc
    refine State.timerStage_inv ?_ (hhi.trans (by decide)) (State.beginExecute_liveStack w hstack) ?_ ?_
    · simpa using hmem
    · exact ⟨(s.beginExecute_fault w).trans hr.1, (s.beginExecute_loadError w).trans hr.2⟩
    · simpa using hlatch hr.1

/-- Settles O4: a halted core does not change, one with a refused load does not step, and a running one ends its cycle
in the invariant. -/
theorem stepKeepsTheInvariant : Obligations.StepKeepsTheInvariant := by
  intro s t h hstep
  cases hf : s.fault with
  | true =>
    obtain rfl : s = t := Host.Outcome.next.inj ((step_halted s hf).symm.trans hstep)
    exact h
  | false =>
    cases hl : s.loadError with
    | true => cases (step_loadError s hf hl).symm.trans hstep
    | false => exact step_keeps_inv_of_running ⟨hf, hl⟩ h hstep

end Sys2Proof.Machine
end

section
/-! The whole cycle of a running core (40 R80 to R86): it always answers a state, keeps the parameters, samples the
keys, and reports an unknown word or nothing. -/

namespace Sys2Proof.Machine

/-- Stages 1 and 2 (R80 to R82), as one update of the sampled state. -/
theorem State.beginExecute_eq (s : State) (w : Word) : s.beginExecute w =
    { s.sampleKeys with pc := s.pc + 2, instr := w, tone := false, unknown := none, started := true } := by
  simp only [State.beginExecute, State.advance, State.sampleKeys_pc]

/-- Settles O16: stage 3 answers a state, and the step commits it. -/
theorem stepRunsTheDecodedInstruction : Obligations.StepRunsTheDecodedInstruction := by
  intro s i hr hpc hd
  obtain ⟨u, hu, _⟩ := exec_effect i (s.beginExecute (s.readByte s.pc.toNat ++ s.readByte (s.pc.toNat + 1)))
  refine ⟨s.beginExecute _, u, s.beginExecute_eq _, hu, ?_⟩
  rw [step_instr s _ i hr (s.fetchWord_of_le hpc) hd, hu]
  rfl

theorem exists_step_of_running (s : State) (hr : s.Running) : ∃ t, step s = .next t := by
  rcases s.fetchWord_cases with ⟨_, hw⟩ | ⟨hpc, _⟩
  · cases hd : decode s.cfg (wordOfBytes (s.readByte s.pc.toNat) (s.readByte (s.pc.toNat + 1))) with
    | error e => exact ⟨_, step_unknown s _ e hr hw hd⟩
    | ok i =>
      obtain ⟨u, hu, _⟩ := exec_effect i (s.beginExecute _)
      exact ⟨s.commit u, by rw [step_instr s _ i hr hw hd, hu]; rfl⟩
  · exact ⟨_, step_fetchFault s hr hpc⟩

theorem CycleCases.keeps_cfg_loadError {s t : State} (h : CycleCases s t) :
    t.cfg = s.cfg ∧ t.loadError = s.loadError := by
  cases h with
  | faulted => exact ⟨rfl, rfl⟩
  | unknown w => exact ⟨s.beginExecute_cfg w, s.beginExecute_loadError w⟩
  | executed w i u _ _ _ he =>
    obtain ⟨_, _, hload, _, _, hcfg⟩ := exec_sameOutside he
    exact ⟨hcfg.trans (s.beginExecute_cfg w), hload.trans (s.beginExecute_loadError w)⟩

/-- Settles O59: a halted core steps to itself; every outcome of a running core's cycle keeps both fields. -/
theorem coreAlwaysStepsAndKeepsItsParameters : Obligations.CoreAlwaysStepsAndKeepsItsParameters := by
  intro s hl
  cases hf : s.fault with
  | true => exact ⟨s, step_halted s hf, rfl, hl, fun _ => hf⟩
  | false =>
    obtain ⟨t, ht⟩ := exists_step_of_running s ⟨hf, hl⟩
    obtain ⟨hcfg, hload⟩ := (cycleCases_of_step ⟨hf, hl⟩ ht).keeps_cfg_loadError
    exact ⟨t, ht, hcfg, hload.trans hl, nofun⟩

theorem CycleCases.key_eq_sample {s t : State} (h : CycleCases s t) (ht : t.fault = false) :
    t.key = s.sampleKeys.key ∧ t.keysIn = s.sampleKeys.keysIn := by
  cases h with
  | faulted => cases ht
  | unknown => exact ⟨rfl, rfl⟩
  | executed w i u _ _ _ he =>
    obtain ⟨hkey, _, _, hkeysIn, _⟩ := exec_sameOutside he
    exact ⟨hkey, hkeysIn⟩

/-- Settles O22: the sample of the cycle's start, which no stage writes, in its two cases. -/
theorem keypadIsTheHostsSampleAndNeverWritten : Obligations.KeypadIsTheHostsSampleAndNeverWritten := by
  intro s t hr hstep ht
  obtain ⟨hkey, hkeysIn⟩ := (cycleCases_of_step hr hstep).key_eq_sample ht
  rw [hkey, hkeysIn]
  exact ⟨fun h => by simp [State.sampleKeys, h], fun k ks h => by simp [State.sampleKeys, h]⟩

theorem decTimer_eq (v : Byte) : decTimer v = BitVec.ofNat 8 (v.toNat - 1) := by
  apply BitVec.eq_of_toNat_eq
  rw [decTimer_toNat, BitVec.toNat_ofNat]
  omega

/-- The decoder gives CXNN only where it exists. -/
theorem maskedDraw_of_decode {c : Config} {w : Word} {i : Instr} (h : decode c w = .ok i) :
    (∀ x nn, i ≠ .rnd x nn) ∨ c.rndMode = .maskedDraw := by
  obtain ⟨_, hi⟩ := encodeOfDecodeIsTheWord c w i h
  cases i with
  | rnd x nn => exact .inr (beq_iff_eq.mp hi)
  | _ => exact .inl nofun

/-- A cycle whose word is an instruction latches a fault, or ran stage 3 of that instruction to its end. -/
theorem CycleCases.of_instr {s t : State} {w : Word} {i : Instr} (h : CycleCases s t) (hw : s.fetchWord = some w)
    (hd : decode s.cfg w = .ok i) : (∃ code info, t = Latched s code info) ∨
      ∃ u, exec i (s.beginExecute w) = .next u ∧ u.fault = false ∧ t = u.timerStage := by
  cases h with
  | faulted code info => exact .inl ⟨code, info, rfl⟩
  | unknown w' e _ hw' hd' =>
    obtain rfl : w = w' := Option.some.inj (hw.symm.trans hw')
    cases hd.symm.trans hd'
  | executed w' j u _ hw' hd' he hu =>
    obtain rfl : w = w' := Option.some.inj (hw.symm.trans hw')
    obtain rfl : i = j := Except.ok.inj (hd.symm.trans hd')
    exact .inr ⟨u, he, hu, rfl⟩

theorem CycleCases.unknown_eq_none {s t : State} {w : Word} {i : Instr} (h : CycleCases s t)
    (hw : s.fetchWord = some w) (hd : decode s.cfg w = .ok i) : t.unknown = none := by
  rcases h.of_instr hw hd with ⟨_, _, rfl⟩ | ⟨u, he, hu, rfl⟩
  · rfl
  · have hmode := maskedDraw_of_decode hd
    rw [← s.beginExecute_cfg w] at hmode
    exact exec_keepsReport he hu hmode

/-- Settles O18: the timer stage after the report, field by field; and an instruction's cycle keeps the report that
stage 2 cleared. -/
theorem unknownWordIsAReportedNoOp : Obligations.UnknownWordIsAReportedNoOp := by
  intro s hr _
  refine ⟨fun w e hw hd => ?noOp, fun w i t hw hd hstep => (cycleCases_of_step hr hstep).unknown_eq_none hw hd⟩
  case noOp =>
    rw [step_unknown s w e hr hw hd]
    simp [State.timerStage, State.reportUnknown, State.beginExecute_eq, decTimer_eq]

end Sys2Proof.Machine
end

section
/-! Pairs of instructions and of cycles: what the second finds of the first (41 R103, 42 R113, 43 R123, 44 R136,
20_memory R52). -/

namespace Sys2Proof.Machine

/-! ### The flag as destination -/

theorem carryFlag_toNat (a b : Byte) : (carryFlag a b).toNat = (a.toNat + b.toNat) / 256 := by
  rw [carryFlag_eq]
  split <;> simp <;> omega

theorem notBorrowFlag_toNat (a b : Byte) : (notBorrowFlag a b).toNat = (a.toNat + 256 - b.toNat) / 256 := by
  rw [notBorrowFlag_eq]
  split <;> simp <;> omega

/-- Settles O31: each meaning writes its flag last, over the result, and each flag as a number is 0 or 1. -/
theorem flagIsWrittenLast : Obligations.FlagIsWrittenLast := by
  intro s y i t hi h
  have written (v f : Byte) (he : exec i s = .next (s.setResultFlag VF v f)) : t.reg VF = f := by
    obtain rfl := Host.Outcome.next.inj (he.symm.trans h)
    exact s.reg_setResultFlag_VF VF v f
  rcases hi with rfl | rfl | rfl | rfl | rfl
  · rw [written _ _ rfl, carryFlag_toNat]
    exact ⟨fun _ => rfl, nofun, nofun, nofun, nofun, nofun, nofun, by omega⟩
  · rw [written _ _ rfl, notBorrowFlag_toNat]
    exact ⟨nofun, fun _ => rfl, nofun, nofun, nofun, nofun, nofun, by omega⟩
  · rw [written _ _ rfl, shiftRightOut_toNat]
    exact ⟨nofun, nofun, nofun, fun _ hvx => by rw [s.shiftOperand_vx VF y hvx],
      fun _ hvy => by rw [s.shiftOperand_vy VF y hvy], nofun, nofun, by omega⟩
  · rw [written _ _ rfl, notBorrowFlag_toNat]
    exact ⟨nofun, nofun, fun _ => rfl, nofun, nofun, nofun, nofun, by omega⟩
  · rw [written _ _ rfl, shiftLeftOut_toNat]
    exact ⟨nofun, nofun, nofun, nofun, nofun, fun _ hvx => by rw [s.shiftOperand_vx VF y hvx],
      fun _ hvy => by rw [s.shiftOperand_vy VF y hvy], by omega⟩

/-! ### Return after call -/

/-- Settles O35: the return finds the entry the call wrote, one below the pointer. -/
theorem returnUndoesCall : Obligations.ReturnUndoesCall := by
  intro s u nnn p hroom h
  obtain rfl := Host.Outcome.next.inj ((exec_call_of_lt s nnn hroom).symm.trans h)
  exact ⟨_, exec_ret_of_succ _ ⟨s.sp.val, hroom⟩ rfl, rfl, Vector.getElem_set_self hroom⟩

/-! ### The same sprite twice -/

/-- A draw that leaves its coordinates alone leaves the same sprite to draw. -/
theorem spriteToggles_drawn (s : State) (x y : Reg) (n : Nibble) (hx : (s.drawn x y n).reg x = s.reg x)
    (hy : (s.drawn x y n).reg y = s.reg y) (row col : Nat) :
    SpriteToggles (s.drawn x y n) x y n row col ↔ SpriteToggles s x y n row col := by
  simp only [SpriteToggles, hx, hy, State.readByte_drawAt, State.drawAt_I]

theorem drawn_drawn_disp (s : State) (x y : Reg) (n : Nibble) (hx : (s.drawn x y n).reg x = s.reg x)
    (hy : (s.drawn x y n).reg y = s.reg y) : ((s.drawn x y n).drawn x y n).disp = s.disp := by
  refine Display.ext_cell _ _ fun row col _ _ => ?_
  by_cases h : SpriteToggles s x y n row col
  · rw [State.drawn_cell_of_toggles _ x y n row col ((spriteToggles_drawn s x y n hx hy row col).mpr h),
      s.drawn_cell_of_toggles x y n row col h, Bool.not_not]
  · rw [State.drawn_cell_of_not_toggles _ x y n row col (mt (spriteToggles_drawn s x y n hx hy row col).mp h),
      s.drawn_cell_of_not_toggles x y n row col h]

/-- The second draw collides where the first turned a cell on. -/
theorem collides_drawn_iff (s : State) (x y : Reg) (n : Nibble) (hx : (s.drawn x y n).reg x = s.reg x)
    (hy : (s.drawn x y n).reg y = s.reg y) : Collides (s.drawn x y n) x y n ↔
      ∃ row col, SpriteToggles s x y n row col ∧ s.disp.cell row col = false := by
  simp only [Collides, spriteToggles_drawn s x y n hx hy]
  refine exists_congr fun row => exists_congr fun col => and_congr_right fun h => ?_
  rw [s.drawn_cell_of_toggles x y n row col h, Bool.not_eq_true']

/-- Settles O40: both draws are of one sprite, so the second undoes the first cell by cell, and collides where the first
did not. -/
theorem drawingTwiceRestoresTheDisplay : Obligations.DrawingTwiceRestoresTheDisplay := by
  intro s t u x y n hin ht hx hy hu
  obtain rfl := Host.Outcome.next.inj ((exec_drw_inside s x y n hin).symm.trans ht)
  obtain rfl := Host.Outcome.next.inj ((exec_drw_inside (s.drawn x y n) x y n hin).symm.trans hu)
  have hsecond := collides_drawn_iff s x y n hx hy
  refine ⟨drawn_drawn_disp s x y n hx hy, s.drawn_flag_eq_one x y n, (State.drawn_flag_eq_one _ x y n).trans hsecond,
    fun hnone => ⟨(s.drawn_flag_eq_zero x y n).mpr ?first, (State.drawn_flag_eq_zero _ x y n).mpr ?second⟩⟩
  case first => exact fun ⟨row, col, h, _⟩ => hnone ⟨row, col, h⟩
  case second =>
    intro h
    obtain ⟨row, col, h, _⟩ := hsecond.mp h
    exact hnone ⟨row, col, h⟩

/-! ### Block load after block store -/

theorem exec_storeRegs_inside (s : State) (x : Reg) (h : s.I.toNat + x.val ≤ 0xFFF) :
    exec (.storeRegs x) s = .next (s.storeBytes s.I.toNat (s.regsUpTo x)) :=
  congrArg _ (s.guardAccess_succ_inside _ x.val h)

theorem exec_loadRegs_inside (s : State) (x : Reg) (h : s.I.toNat + x.val ≤ 0xFFF) :
    exec (.loadRegs x) s = .next (s.loadRegsUpTo x) :=
  congrArg _ (s.guardAccess_succ_inside _ x.val h)

/-- Settles O45: the load reads the addresses the store wrote, and the change of registers between leaves memory and
`I` alone. -/
theorem blockLoadRestoresStoredRegisters : Obligations.BlockLoadRestoresStoredRegisters := by
  intro s t x v hin h
  obtain rfl := Host.Outcome.next.inj ((exec_storeRegs_inside s x hin).symm.trans h)
  have hI : ((s.storeBytes s.I.toNat (s.regsUpTo x)).setRegs v).I = s.I := s.storeBytes_I _ _
  refine ⟨_, exec_loadRegs_inside _ x (by rwa [hI]), fun r hr => ?stored,
    State.sameRegsBut_loadRegsUpTo _ x⟩
  case stored =>
    rw [State.reg_loadRegsUpTo_of_le _ x r hr, hI, State.readByte_setRegs, s.readByte_storeRegsUpTo _ x r hr]

/-! ### Stores over the next word -/

/-- An access that did not raise let the meaning through. -/
theorem State.guardAccess_of_running {s t u : State} {n : Nat} (h : s.guardAccess n t = u) (hu : u.fault = false) :
    u = t := by
  rcases s.guardAccess_cases t n with ⟨_, heq⟩ | ⟨_, heq⟩
  · exact h.symm.trans heq
  · cases heq.symm.trans h
    cases hu

/-- A run of at least two bytes stored at `pc` begins with the word that the next cycle fetches. -/
theorem State.fetchWord_storeBytes (s : State) (vs : List Byte) (hpc : s.pc.toNat ≤ 0xFFE)
    (hI : s.I.toNat = s.pc.toNat) (hlen : 1 < vs.length) :
    (s.storeBytes s.I.toNat vs).timerStage.fetchWord = some (vs[0] ++ vs[1]) := by
  have hhi := s.readByte_storeBytes_inside s.pc.toNat vs 0 (by omega)
  have hlo := s.readByte_storeBytes_inside s.pc.toNat vs 1 hlen
  rw [Nat.add_zero] at hhi
  rw [State.fetchWord_of_le _ (by simpa using hpc)]
  simp only [State.readByte_timerStage, State.timerStage_pc, State.storeBytes_pc, hI, hhi, hlo]

/-- The hundreds and the tens digit, as one word. -/
theorem hundreds_append_tens (v : Byte) :
    BitVec.ofNat 8 (v.toNat / 100) ++ BitVec.ofNat 8 (v.toNat / 10 % 10) =
      BitVec.ofNat 16 (v.toNat / 100 * 256 + v.toNat / 10 % 10) := by
  apply BitVec.eq_of_toNat_eq
  rw [append_toNat]
  simp only [BitVec.toNat_ofNat]
  omega

/-- Settles O46: the stores of the cycle begin at the advanced `pc`, where the next cycle fetches. -/
theorem storedBytesAreFetchedNext : Obligations.StoredBytesAreFetchedNext := by
  intro s t i hr hpc hd hI hstep ht
  have hw := s.fetchWord_of_le (by omega)
  generalize s.readByte s.pc.toNat ++ s.readByte (s.pc.toNat + 1) = w at hd hw
  rcases (cycleCases_of_step hr hstep).of_instr hw hd with ⟨_, _, rfl⟩ | ⟨u, he, hu, rfl⟩
  · cases ht
  · have hpc' : (s.beginExecute w).pc.toNat = s.pc.toNat + 2 := by rw [State.beginExecute_pc]; bv_omega
    have hI' : (s.beginExecute w).I.toNat = (s.beginExecute w).pc.toNat := by rw [State.beginExecute_I, hI, hpc']
    refine ⟨fun x hx hx1 => ?block, fun x hx => ?bcd⟩
    case block =>
      subst hx
      obtain rfl := State.guardAccess_of_running (Host.Outcome.next.inj he) hu
      have hlen : 1 < ((s.beginExecute w).regsUpTo x).length := by rw [State.regsUpTo_length]; omega
      rw [State.fetchWord_storeBytes _ _ (by omega) hI' hlen]
      have h0 := State.regsUpTo_getElem (s.beginExecute w) x 0 (Nat.zero_lt_of_lt hlen)
      have h1 := State.regsUpTo_getElem (s.beginExecute w) x 1 hlen
      rw [State.reg_beginExecute] at h0 h1
      exact congrArg some (congrArg₂ _ h0 h1)
    case bcd =>
      subst hx
      obtain rfl := State.guardAccess_of_running (Host.Outcome.next.inj he) hu
      rw [State.fetchWord_storeBytes _ (bcdDigits _) (by omega) hI' (show 1 < 3 by decide), ← s.reg_beginExecute w x]
      exact congrArg some (hundreds_append_tens _)

end Sys2Proof.Machine
end

section
/-! The key wait (45 R143, 40 R87): no key, a rewind and a full cycle; a key, one of those held. -/

namespace Sys2Proof.Machine

theorem State.heldKeys_eq_nil {s : State} (h : ∀ k : Fin 16, s.key.getLsbD k.val = false) : s.heldKeys = [] := by
  refine List.eq_nil_iff_forall_not_mem.mpr fun k hk => ?_
  rw [State.mem_heldKeys, h k] at hk
  cases hk

theorem exec_ldVxK_of_none (s : State) (x : Reg) (h : ∀ k : Fin 16, s.key.getLsbD k.val = false) :
    exec (.ldVxK x) s = .next (s.setPc (s.pc - 2)) :=
  exec_ldVxK_of_nil s x (State.heldKeys_eq_nil h)

/-- With a key held, one of the held keys is latched. -/
theorem exec_ldVxK_of_held (s : State) (x : Reg) (j : Fin 16) (h : s.key.getLsbD j.val = true) :
    ∃ k : Fin 16, s.key.getLsbD k.val = true ∧
      exec (.ldVxK x) s = .next (s.setReg x (BitVec.ofNat 8 k.val)).countDraw := by
  cases hheld : s.heldKeys with
  | nil => exact absurd ((s.mem_heldKeys j).mpr h) (hheld ▸ List.not_mem_nil)
  | cons k ks =>
    refine ⟨s.chooseKey k ks, ?_, exec_ldVxK_of_cons s x k ks hheld⟩
    rw [← State.mem_heldKeys, hheld]
    exact s.chooseKey_mem k ks

/-- Settles O48: the two cases of the held keys; a key that is the only one held is the one latched. -/
theorem keyWaitRewindsOrLatchesAHeldKey : Obligations.KeyWaitRewindsOrLatchesAHeldKey := by
  intro c s x
  refine ⟨decode_encode_of_wellFormed c (.ldVxK x) rfl, exec_ldVxK_of_none s x, fun j hj => ?held⟩
  case held =>
    obtain ⟨k, hk, he⟩ := exec_ldVxK_of_held s x j hj
    refine ⟨_, k, he, hk, ?index, fun honly => honly k hk, s.sameRegsBut_setReg x _, rfl⟩
    case index =>
      rw [State.reg_countDraw, State.reg_setReg_self, BitVec.toNat_ofNat]
      omega

/-- Settles O49: the rewind takes back the advance, and the timer stage follows as in every cycle. -/
theorem keyWaitStallIsAFullCycle : Obligations.KeyWaitStallIsAFullCycle := by
  intro s x hr hw hkey
  have hd : decode s.cfg (wordXI 0xF x 0x0A) = .ok (.ldVxK x) := decode_encode_of_wellFormed s.cfg (.ldVxK x) rfl
  have hnone : ∀ k : Fin 16, (s.beginExecute (wordXI 0xF x 0x0A)).key.getLsbD k.val = false := by
    intro k
    rw [State.beginExecute_key, hkey]
    exact BitVec.getLsbD_zero
  generalize wordXI 0xF x 0x0A = w at hw hd hnone
  have hrunning : ((s.beginExecute w).setPc ((s.beginExecute w).pc - 2)).fault = false :=
    (s.beginExecute_fault w).trans hr.1
  have hstep : step s = .next ((s.beginExecute w).setPc ((s.beginExecute w).pc - 2)).timerStage := by
    rw [step_instr s w _ hr hw hd, exec_ldVxK_of_none _ x hnone, finishCycle, s.commit_of_running _ hrunning]
  have hpc : (s.beginExecute w).pc - 2 = s.pc := by rw [State.beginExecute_pc, BitVec.add_sub_cancel]
  obtain ⟨hDT, hsound⟩ := step_instr_ticks s _ w _ hr hw hd hstep hrunning
  exact ⟨_, hstep, hpc, s.reg_beginExecute w, hrunning, hDT, hsound⟩

end Sys2Proof.Machine
end

section
/-! Noninterference (45 R140, 10_state R20, R26): each operation commutes with putting other keys and another sound
timer into the state, so stage 3 does, but for the readers of the keys and the writer of the timer. -/

namespace Sys2Proof.Machine

/-- The state with other keys sampled and another sound timer. -/
abbrev State.withKeyST (s : State) (k : BitVec 16) (v : Byte) : State := { s with key := k, ST := v }

theorem State.skipIf_withKeyST (s : State) (k : BitVec 16) (v : Byte) (b : Bool) :
    (s.withKeyST k v).skipIf b = (s.skipIf b).withKeyST k v := by cases b <;> rfl

theorem State.guardAccess_withKeyST (s t : State) (k : BitVec 16) (v : Byte) (n : Nat) :
    (s.withKeyST k v).guardAccess n (t.withKeyST k v) = (s.guardAccess n t).withKeyST k v := by
  unfold State.guardAccess
  split <;> rfl

theorem State.storeBytes_withKeyST (s : State) (k : BitVec 16) (v : Byte) (a : Nat) (vs : List Byte) :
    (s.withKeyST k v).storeBytes a vs = (s.storeBytes a vs).withKeyST k v := by
  induction vs generalizing s a with
  | nil => rfl
  | cons b vs ih => exact ih (s.writeByte a b) (a + 1)

theorem State.loadRegsUpTo_withKeyST (s : State) (k : BitVec 16) (v : Byte) (x : Reg) :
    (s.withKeyST k v).loadRegsUpTo x = (s.loadRegsUpTo x).withKeyST k v := by
  simp only [State.loadRegsUpTo]
  rfl

/-- Stage 3 answers a state, and the same one with `k` and `v` in it when they were in the state it began from. -/
abbrev CommutesWithKeyST (i : Instr) (s : State) (k : BitVec 16) (v : Byte) : Prop :=
  ∃ t, exec i s = .next t ∧ exec i (s.withKeyST k v) = .next (t.withKeyST k v)

theorem commutes_of_guardAccess {i : Instr} {s : State} {k : BitVec 16} {v : Byte} (f : State → State)
    (he : ∀ s', exec i s' = .next (s'.guardAccess (dataBytes i) (f s')))
    (hf : f (s.withKeyST k v) = (f s).withKeyST k v) : CommutesWithKeyST i s k v :=
  ⟨_, he s, by rw [he, hf, State.guardAccess_withKeyST]⟩

theorem commutes_keySkip {i : Instr} {s : State} (v : Byte) (x : Reg) (hi : i = .skp x ∨ i = .sknp x) :
    CommutesWithKeyST i s s.key v := by
  by_cases habove : (s.reg x).toNat > 15
  · rcases hi with rfl | rfl
    · exact ⟨_, exec_skp_above s x habove, exec_skp_above (s.withKeyST s.key v) x habove⟩
    · exact ⟨_, exec_sknp_above s x habove, exec_sknp_above (s.withKeyST s.key v) x habove⟩
  · have hkey : (s.reg x).toNat < 16 := by omega
    rcases hi with rfl | rfl
    · refine ⟨_, exec_skp_of_key s x ⟨_, hkey⟩ rfl, ?_⟩
      rw [exec_skp_of_key (s.withKeyST s.key v) x ⟨_, hkey⟩ rfl, State.skipIf_withKeyST]
    · refine ⟨_, exec_sknp_of_key s x ⟨_, hkey⟩ rfl, ?_⟩
      rw [exec_sknp_of_key (s.withKeyST s.key v) x ⟨_, hkey⟩ rfl, State.skipIf_withKeyST]

theorem commutes_keyWait (s : State) (v : Byte) (x : Reg) : CommutesWithKeyST (.ldVxK x) s s.key v := by
  cases hheld : s.heldKeys with
  | nil => exact ⟨_, exec_ldVxK_of_nil s x hheld, exec_ldVxK_of_nil (s.withKeyST s.key v) x hheld⟩
  | cons k ks => exact ⟨_, exec_ldVxK_of_cons s x k ks hheld, exec_ldVxK_of_cons (s.withKeyST s.key v) x k ks hheld⟩

/-- The readers of the keypad (45 R140). -/
inductive ReadsKeys : Instr → Prop where
  | skp (x : Reg) : ReadsKeys (.skp x)
  | sknp (x : Reg) : ReadsKeys (.sknp x)
  | ldVxK (x : Reg) : ReadsKeys (.ldVxK x)

theorem exec_commutesWithKeyST (i : Instr) (s : State) (k : BitVec 16) (v : Byte) (hk : ReadsKeys i → k = s.key)
    (hST : ∀ x, i ≠ .ldSTVx x) : CommutesWithKeyST i s k v := by
  cases i with
  | cls | jp | ldImm | addImm | ldReg | orReg | andReg | xorReg | addReg | subReg | shr | subnReg | shl | ldI | jpV0
  | ldVxDT | ldDTVx | addI | ldF => exact ⟨_, rfl, rfl⟩
  | seImm | sneImm | seReg | sneReg => exact ⟨_, rfl, congrArg _ (s.skipIf_withKeyST k v _)⟩
  | ldSTVx x => exact absurd rfl (hST x)
  | skp x => exact hk (.skp x) ▸ commutes_keySkip v x (.inl rfl)
  | sknp x => exact hk (.sknp x) ▸ commutes_keySkip v x (.inr rfl)
  | ldVxK x => exact hk (.ldVxK x) ▸ commutes_keyWait s v x
  | rnd x nn =>
    cases hmode : s.cfg.rndMode with
    | maskedDraw => exact ⟨_, exec_rnd_maskedDraw s x nn hmode, exec_rnd_maskedDraw (s.withKeyST k v) x nn hmode⟩
    | unknown => exact ⟨_, exec_rnd_unknown s x nn hmode, exec_rnd_unknown (s.withKeyST k v) x nn hmode⟩
  | call nnn =>
    rcases s.pushPc_cases with ⟨hroom, _⟩ | ⟨hfull, _⟩
    · exact ⟨_, exec_call_of_lt s nnn hroom, exec_call_of_lt (s.withKeyST k v) nnn hroom⟩
    · exact ⟨_, exec_call_full s nnn hfull, exec_call_full (s.withKeyST k v) nnn hfull⟩
  | ret =>
    rcases s.sp.eq_zero_or_eq_succ with hempty | ⟨j, hj⟩
    · exact ⟨_, exec_ret_empty s hempty, exec_ret_empty (s.withKeyST k v) hempty⟩
    · have hsp : s.sp.val = j.val + 1 := congrArg Fin.val hj
      exact ⟨_, exec_ret_of_succ s j hsp, exec_ret_of_succ (s.withKeyST k v) j hsp⟩
  | drw x y n => exact commutes_of_guardAccess (fun s' => s'.drawn x y n) (fun _ => rfl) rfl
  | ldB x => exact commutes_of_guardAccess _ (fun _ => rfl) (s.storeBytes_withKeyST k v _ _)
  | storeRegs x => exact commutes_of_guardAccess _ (fun _ => rfl) (s.storeBytes_withKeyST k v _ _)
  | loadRegs x =>
    exact commutes_of_guardAccess (fun s' => s'.loadRegsUpTo x) (fun _ => rfl) (s.loadRegsUpTo_withKeyST k v x)

theorem exec_withKeyST {i : Instr} {s t : State} (h : exec i s = .next t) (k : BitVec 16) (v : Byte)
    (hk : ReadsKeys i → k = s.key) (hST : ∀ x, i ≠ .ldSTVx x) :
    exec i (s.withKeyST k v) = .next (t.withKeyST k v) := by
  obtain ⟨u, hu, hcommutes⟩ := exec_commutesWithKeyST i s k v hk hST
  obtain rfl : u = t := Host.Outcome.next.inj (hu.symm.trans h)
  exact hcommutes

/-- Settles O57: putting in other keys leaves the sound timer as it is, and the other way round; FX18 writes the timer
over whatever was put in. -/
theorem keypadAndSoundTimerAreReadOnlyWhereSaid : Obligations.KeypadAndSoundTimerAreReadOnlyWhereSaid := by
  intro i s t h
  refine ⟨fun k hskp hsknp hldVxK => ?keys, fun v hST => ?sound, ?writer⟩
  case keys =>
    by_cases hST : ∃ x, i = .ldSTVx x
    · obtain ⟨x, rfl⟩ := hST
      obtain rfl := Host.Outcome.next.inj h
      rfl
    · have hST := not_exists.mp hST
      have hreads : ReadsKeys i → k = s.key := by
        rintro (x | x | x)
        · exact absurd rfl (hskp x)
        · exact absurd rfl (hsknp x)
        · exact absurd rfl (hldVxK x)
      obtain ⟨_, _, _, _, hsound⟩ := specialRegistersHaveTheirOwnWriters i s t h
      have ht : t.withKeyST k s.ST = { t with key := k } := by rw [← hsound hST]
      exact (exec_withKeyST h k s.ST hreads hST).trans (congrArg _ ht)
  case sound =>
    obtain ⟨hkey, _⟩ := exec_sameOutside h
    have ht : t.withKeyST s.key v = { t with ST := v } := by rw [← hkey]
    exact (exec_withKeyST h s.key v (fun _ => rfl) hST).trans (congrArg _ ht)
  case writer =>
    rintro v x rfl
    obtain rfl := Host.Outcome.next.inj h
    rfl

end Sys2Proof.Machine
end

section
/-! Words at the host's entry and in memory: the example words (30_encoding R65), the table word (20_memory R44), the
random byte (41 R102), and the run with nothing loaded (70 R185, 95 V-RST-3). -/

namespace Sys2Proof.Machine

/-- Settles O14: each word is decoded by evaluation. -/
theorem exampleWordsDecode : Obligations.ExampleWordsDecode := by
  unfold Obligations.ExampleWordsDecode
  decide

/-! ### The table word -/

/-- The two bytes of a whole word, most significant first. -/
theorem wordOfBytes_tableBytes (w : Word) :
    wordOfBytes (BitVec.ofNat 8 (w.toNat % 2 ^ 16 / 256)) (BitVec.ofNat 8 (w.toNat % 2 ^ 16)) = w := by
  apply BitVec.eq_of_toNat_eq
  rw [wordOfBytes, append_toNat, BitVec.toNat_ofNat, BitVec.toNat_ofNat]
  omega

theorem decodeTableWord_eq (w : Word) : decodeTableWord 16 w.toNat = (decode Config.standard w).toOption := by
  simp only [decodeTableWord, tableBytes, decodeBytes, wordOfBytes_tableBytes]
  cases decode Config.standard w <;> rfl

theorem State.withFetchWord_eq (s : State) (w : Word) (h : s.pc.toNat ≤ 0xFFE) :
    s.withFetchWord 16 w.toNat = s.storeBytes s.pc.toNat (tableBytes 16 w.toNat) :=
  if_neg (Nat.not_lt.mpr h)

/-- Settles O15: the entry decodes the word the two bytes make, and the fetch reads the two bytes stored. -/
theorem tableWordIsFetchedAndDecodedAsItself : Obligations.TableWordIsFetchedAndDecodedAsItself := by
  refine ⟨decodeTableWord_eq, fun s w hpc => ?_⟩
  rw [s.withFetchWord_eq w hpc]
  refine ⟨?fetched, s.storeBytes_eq _ _⟩
  case fetched =>
    have hhi := s.readByte_storeBytes_inside s.pc.toNat (tableBytes 16 w.toNat) 0 (show 0 < 2 by decide)
    have hlo := s.readByte_storeBytes_inside s.pc.toNat (tableBytes 16 w.toNat) 1 (show 1 < 2 by decide)
    rw [Nat.add_zero] at hhi
    rw [State.fetchWord_of_le _ (by rwa [State.storeBytes_pc]), State.storeBytes_pc, hhi, hlo]
    exact congrArg some (wordOfBytes_tableBytes w)

/-! ### The random byte -/

/-- No bit outside the mask. -/
theorem and_and_not_self (r nn : Byte) : r &&& nn &&& ~~~nn = 0 := by
  rw [BitVec.and_assoc, BitVec.and_not_self]
  exact BitVec.and_zero

/-- Settles O29: the family 0xC by RND_MODE, and the meaning's one write under masked_draw. -/
theorem randomIsAMaskedFreeDraw : Obligations.RandomIsAMaskedFreeDraw := by
  intro c s x nn
  refine ⟨fun hmode => ?unknown, fun hmode => decode_encode_of_wellFormed c (.rnd x nn) (beq_iff_eq.mpr hmode),
    fun hmode => ?masked⟩
  case unknown =>
    rw [decode_familyC c (opField_wordXI _ _ _), decodeFamilyC_error_iff]
    exact ⟨rfl, hmode⟩
  case masked =>
    have hx := s.reg_setReg_self x (Config.freeByte s.draws &&& nn)
    refine ⟨_, exec_rnd_maskedDraw s x nn hmode, hx, ?_, s.sameRegsBut_setReg x _, rfl⟩
    exact (congrArg (· &&& ~~~nn) hx).trans (and_and_not_self _ nn)

/-- Settles O30: the meaning's other branch, with the word written out. -/
theorem randomUnderUnknownReportsItsWord : Obligations.RandomUnderUnknownReportsItsWord :=
  fun s x nn hmode => exec_rnd_unknown s x nn hmode

/-! ### The run with nothing loaded -/

theorem core_run_of_step {s u : State} (h : step s = .next u) (n : Nat) :
    Sys2Proof.core.run (n + 1) s = Sys2Proof.core.run n u := by
  have h : Sys2Proof.core.step s = .next u := h
  simp only [Host.Core.run, h]

/-- A run is as well extended by a step at its end. -/
theorem core_run_succ {n : Nat} {s t : State} (h : Sys2Proof.core.run n s = .next t) :
    Sys2Proof.core.run (n + 1) s = step t := by
  induction n generalizing s with
  | zero =>
    obtain rfl := Host.Outcome.next.inj h
    show _ = Sys2Proof.core.step s
    simp only [Host.Core.run]
    cases Sys2Proof.core.step s <;> rfl
  | succ n ih =>
    cases hs : step s with
    | next u =>
      rw [core_run_of_step hs] at h ⊢
      exact ih h
    | fault r =>
      have hs : Sys2Proof.core.step s = .fault r := hs
      simp [Host.Core.run, hs] at h
    | refused r =>
      have hs : Sys2Proof.core.step s = .refused r := hs
      simp [Host.Core.run, hs] at h

/-- The state after `n` cycles with nothing loaded. -/
structure Idle (n : Nat) (t : State) : Prop where
  running : t.Running
  mem : t.mem = []
  cfg : t.cfg = Config.standard
  pc : t.pc.toNat = 0x200 + 2 * n
  regs : ∀ r, t.reg r = 0
  reported : 1 ≤ n → t.unknown = some 0

theorem idle_reset : Idle 0 State.reset where
  running := ⟨rfl, rfl⟩
  mem := rfl
  cfg := rfl
  pc := rfl
  regs := State.reg_resetWith _
  reported := nofun

/-- Program memory reads as 0 where nothing is stored. -/
theorem Idle.fetchWord_eq {n : Nat} {t : State} (h : Idle n t) (hn : n < 1792) : t.fetchWord = some 0 := by
  have hpc := h.pc
  have zero (a : Nat) (ha : 0x200 ≤ a) : t.readByte a = 0 := by
    rw [State.readByte, h.mem]
    exact resetByte_outside_font _ _ (by omega)
  rw [t.fetchWord_of_le (by omega), zero _ (by omega), zero _ (by omega)]
  rfl

theorem Idle.step {n : Nat} {t : State} (h : Idle n t) (hn : n < 1792) :
    ∃ u, Machine.step t = .next u ∧ Idle (n + 1) u := by
  have hd : decode t.cfg 0 = .error .unknownFamily0 := by rw [h.cfg]; rfl
  refine ⟨_, step_unknown t 0 _ h.running (h.fetchWord_eq hn) hd, ?_⟩
  exact {
    running := ⟨(t.beginExecute_fault 0).trans h.running.1, (t.beginExecute_loadError 0).trans h.running.2⟩
    mem := (t.beginExecute_mem 0).trans h.mem
    cfg := (t.beginExecute_cfg 0).trans h.cfg
    pc := by
      have hpc := h.pc
      rw [State.timerStage_pc, State.reportUnknown_pc, State.beginExecute_pc]
      bv_omega
    regs := fun r => (t.reg_beginExecute 0 r).trans (h.regs r)
    reported := fun _ => rfl }

theorem idle_run (n : Nat) (hn : n ≤ 1792) : ∃ t, Sys2Proof.core.run n State.reset = .next t ∧ Idle n t := by
  induction n with
  | zero => exact ⟨_, rfl, idle_reset⟩
  | succ n ih =>
    obtain ⟨t, ht, hidle⟩ := ih (by omega)
    obtain ⟨u, hu, hidle'⟩ := hidle.step hn
    exact ⟨u, (core_run_succ ht).trans hu, hidle'⟩

/-- Settles O9: after 1792 idle cycles `pc` is 0x1000, where the fetch raises. -/
theorem unloadedCoreRunsUnknownWordsThenFaults : Obligations.UnloadedCoreRunsUnknownWordsThenFaults := by
  refine ⟨fun n hlo hhi => ?idle, ?fault⟩
  case idle =>
    obtain ⟨t, ht, h⟩ := idle_run n hhi
    exact ⟨t, ht, h.pc, h.reported hlo, h.running.1, h.regs⟩
  case fault =>
    obtain ⟨t, ht, h⟩ := idle_run 1792 le_rfl
    have hpc : t.pc = 0x1000 := BitVec.eq_of_toNat_eq h.pc
    exact ⟨_, (core_run_succ ht).trans (step_fetchFault t h.running (by rw [hpc]; decide)), rfl, rfl, hpc⟩

end Sys2Proof.Machine
end
